-- ==== Sys2Proof/Word.lean ====
section
/-!
DEFINITION. The bit-vector types of the GF256 CORE (spec 00_scope.md R7, 10_state.md R12 to R26): every value is
unsigned. Only types stand here; the conversions between bytes, words and integers stand in Machine/Radix.lean.
-/
namespace Sys2Proof

/-- One byte, 0..255 (00_scope.md R7); also an element of GF(256), in which addition is exclusive or. -/
abbrev Byte := BitVec 8

/-- The width of the host port and of a command word (20_memory.md R42, 30_encoding.md R60). -/
abbrev Word := BitVec 32

/-- The width of a length cell (10_state.md R12). -/
abbrev Half := BitVec 16

/-- One mnemonic word index, 0..1023 (00_scope.md R7). -/
abbrev MnWord := BitVec 10

/-- A byte offset into the block's window 0x0000 .. 0x7FFF (20_memory.md R40): every value is an offset of the window. -/
abbrev Offset := BitVec 15

end Sys2Proof
end

