-- ==== Sys2Proof/Machine/Radix.lean ====
section
/-!
DEFINITION. Conversions between integers and big-endian sequences (spec 00_scope.md R7): `int_be` and `BE` on bytes,
`int_w` and `words` on mnemonic words, all four from one pair of functions.
-/
namespace Sys2Proof.Machine

/-- The integer of a digit sequence in radix `2 ^ w`, first digit most significant; 0 for the empty sequence. -/
def ofDigits {w : Nat} (ds : List (BitVec w)) : Nat :=
  ds.foldl (fun acc d => acc * 2 ^ w + d.toNat) 0

/-- The `n` digits of `v` in radix `2 ^ w`, most significant first (the spec requires `v < 2 ^ (w * n)`). -/
def toDigits (w n v : Nat) : List (BitVec w) :=
  (List.range n).map fun i => BitVec.ofNat w (v / 2 ^ (w * (n - 1 - i)))

/-- `int_be(b)` (00_scope.md R7). -/
def intBE (b : List Byte) : Nat := ofDigits b

/-- `BE(v, n)` (00_scope.md R7). -/
def bytesBE (v n : Nat) : List Byte := toDigits 8 n v

/-- `int_w(w)` (00_scope.md R7). -/
def intWords (ws : List MnWord) : Nat := ofDigits ws

/-- `words(v, n)` (00_scope.md R7). -/
def wordsBE (v n : Nat) : List MnWord := toDigits 10 n v

/-- Element-wise exclusive or of two byte sequences of equal length (00_scope.md R7). -/
def xorBytes (a b : List Byte) : List Byte := List.zipWith (· ^^^ ·) a b

/-- Consecutive pieces of `k` elements, `count` of them. -/
def pieces {α : Type} (k : Nat) : Nat → List α → List (List α)
  | 0, _ => []
  | count + 1, xs => xs.take k :: pieces k count (xs.drop k)

end Sys2Proof.Machine
end

