-- ==== Sys2Proof/Machine/Hash.lean ====
section
/-!
DEFINITION. SHA-256, HMAC-SHA256 and PBKDF2-HMAC-SHA256, the rules themselves (spec 46_hash_primitives.md R170 to R175;
of the two choices of R176 this is (a), log entry 5).
-/
namespace Sys2Proof.Machine

/-- The eight 32-bit words of a running hash, `H[0]` to `H[7]`, also the working variables `a` to `h` (46_hash_primitives.md R171). -/
structure HashWords where
  /-- `H[0]`, `a`. -/
  a : Word
  /-- `H[1]`, `b`. -/
  b : Word
  /-- `H[2]`, `c`. -/
  c : Word
  /-- `H[3]`, `d`. -/
  d : Word
  /-- `H[4]`, `e`. -/
  e : Word
  /-- `H[5]`, `f`. -/
  f : Word
  /-- `H[6]`, `g`. -/
  g : Word
  /-- `H[7]`, `h`. -/
  h : Word
deriving DecidableEq, Repr

/-- `H0` (46_hash_primitives.md R173). -/
def sha256Init : HashWords where
  a := 0x6A09E667
  b := 0xBB67AE85
  c := 0x3C6EF372
  d := 0xA54FF53A
  e := 0x510E527F
  f := 0x9B05688C
  g := 0x1F83D9AB
  h := 0x5BE0CD19

/-- The round constants `K[0..63]` (46_hash_primitives.md R172). -/
def sha256K : List Word :=
  [0x428A2F98, 0x71374491, 0xB5C0FBCF, 0xE9B5DBA5, 0x3956C25B, 0x59F111F1, 0x923F82A4, 0xAB1C5ED5] ++
  [0xD807AA98, 0x12835B01, 0x243185BE, 0x550C7DC3, 0x72BE5D74, 0x80DEB1FE, 0x9BDC06A7, 0xC19BF174] ++
  [0xE49B69C1, 0xEFBE4786, 0x0FC19DC6, 0x240CA1CC, 0x2DE92C6F, 0x4A7484AA, 0x5CB0A9DC, 0x76F988DA] ++
  [0x983E5152, 0xA831C66D, 0xB00327C8, 0xBF597FC7, 0xC6E00BF3, 0xD5A79147, 0x06CA6351, 0x14292967] ++
  [0x27B70A85, 0x2E1B2138, 0x4D2C6DFC, 0x53380D13, 0x650A7354, 0x766A0ABB, 0x81C2C92E, 0x92722C85] ++
  [0xA2BFE8A1, 0xA81A664B, 0xC24B8B70, 0xC76C51A3, 0xD192E819, 0xD6990624, 0xF40E3585, 0x106AA070] ++
  [0x19A4C116, 0x1E376C08, 0x2748774C, 0x34B0BCB5, 0x391C0CB3, 0x4ED8AA4A, 0x5B9CCA4F, 0x682E6FF3] ++
  [0x748F82EE, 0x78A5636F, 0x84C87814, 0x8CC70208, 0x90BEFFFA, 0xA4506CEB, 0xBEF9A3F7, 0xC67178F2]

/-- `rotr(x, n)` (46_hash_primitives.md R171). -/
def rotr (x : Word) (n : Nat) : Word := (x >>> n) ||| (x <<< (32 - n))

/-- `Ch(x, y, z)` (46_hash_primitives.md R171). -/
def shaCh (x y z : Word) : Word := (x &&& y) ^^^ (~~~x &&& z)

/-- `Maj(x, y, z)` (46_hash_primitives.md R171). -/
def shaMaj (x y z : Word) : Word := (x &&& y) ^^^ (x &&& z) ^^^ (y &&& z)

/-- `bsig0(x)` (46_hash_primitives.md R171). -/
def bsig0 (x : Word) : Word := rotr x 2 ^^^ rotr x 13 ^^^ rotr x 22

/-- `bsig1(x)` (46_hash_primitives.md R171). -/
def bsig1 (x : Word) : Word := rotr x 6 ^^^ rotr x 11 ^^^ rotr x 25

/-- `ssig0(x)` (46_hash_primitives.md R171). -/
def ssig0 (x : Word) : Word := rotr x 7 ^^^ rotr x 18 ^^^ (x >>> 3)

/-- `ssig1(x)` (46_hash_primitives.md R171). -/
def ssig1 (x : Word) : Word := rotr x 17 ^^^ rotr x 19 ^^^ (x >>> 10)

/-- The message schedule extended by `n` words (46_hash_primitives.md R171); the newest word stands first, so `W[t-2]`
is element 1, `W[t-7]` element 6, `W[t-15]` element 14 and `W[t-16]` element 15. -/
def extendSchedule (ws : List Word) : Nat → List Word
  | 0 => ws
  | n + 1 =>
    let prev := extendSchedule ws n
    (ssig1 (prev.getD 1 0) + prev.getD 6 0 + ssig0 (prev.getD 14 0) + prev.getD 15 0) :: prev

/-- `W[0..63]` of a 64-byte block (46_hash_primitives.md R171). -/
def messageSchedule (block : List Byte) : List Word :=
  (extendSchedule ((pieces 4 16 block).map fun q => BitVec.ofNat 32 (intBE q)).reverse 48).reverse

/-- One of the 64 rounds, with `kw = (K[t], W[t])` (46_hash_primitives.md R171). -/
def sha256Round (v : HashWords) (kw : Word × Word) : HashWords :=
  let t1 := v.h + bsig1 v.e + shaCh v.e v.f v.g + kw.1 + kw.2
  let t2 := bsig0 v.a + shaMaj v.a v.b v.c
  { a := t1 + t2, b := v.a, c := v.b, d := v.c, e := v.d + t1, f := v.e, g := v.f, h := v.g }

/-- Word-wise addition `mod 2 ^ 32`. -/
def HashWords.add (x y : HashWords) : HashWords :=
  { a := x.a + y.a, b := x.b + y.b, c := x.c + y.c, d := x.d + y.d,
    e := x.e + y.e, f := x.f + y.f, g := x.g + y.g, h := x.h + y.h }

/-- `Compress(H, B)` (46_hash_primitives.md R171). -/
def sha256Compress (hs : HashWords) (block : List Byte) : HashWords :=
  hs.add ((sha256K.zip (messageSchedule block)).foldl sha256Round hs)

/-- The padded message (46_hash_primitives.md R170), `z = (55 - l) mod 64` zero bytes. -/
def sha256Pad (m : List Byte) : List Byte :=
  m ++ [0x80] ++ List.replicate (((55 : Int) - m.length) % 64).toNat 0 ++ bytesBE (8 * m.length) 8

/-- `BE(H[0], 4) ‖ ... ‖ BE(H[7], 4)` (46_hash_primitives.md R170). -/
def HashWords.bytes (x : HashWords) : List Byte :=
  bytesBE x.a.toNat 4 ++ bytesBE x.b.toNat 4 ++ bytesBE x.c.toNat 4 ++ bytesBE x.d.toNat 4 ++
    bytesBE x.e.toNat 4 ++ bytesBE x.f.toNat 4 ++ bytesBE x.g.toNat 4 ++ bytesBE x.h.toNat 4

/-- `SHA256(m)` (46_hash_primitives.md R170), defined there for messages below 2 ^ 61 bytes (log entry 6). -/
def sha256 (m : List Byte) : List Byte :=
  let p := sha256Pad m
  ((pieces 64 (p.length / 64) p).foldl sha256Compress sha256Init).bytes

/-- The HMAC key block: the key, hashed if longer than 64 bytes, with zeros up to 64 bytes (46_hash_primitives.md R174). -/
def hmacKeyBlock (key : List Byte) : List Byte :=
  let k0 := if 64 < key.length then sha256 key else key
  k0 ++ List.replicate (64 - k0.length) 0

/-- `HMAC_SHA256(key, msg)` (46_hash_primitives.md R174). -/
def hmacSha256 (key msg : List Byte) : List Byte :=
  let k := hmacKeyBlock key
  sha256 (k.map (· ^^^ 0x5C) ++ sha256 (k.map (· ^^^ 0x36) ++ msg))

/-- `T[i]` after `n` of the repetitions of 46_hash_primitives.md R175, from the iterate `u` and the accumulator `t`. -/
def pbkdf2Repeat (password : List Byte) : Nat → List Byte → List Byte → List Byte
  | 0, _, t => t
  | n + 1, u, t =>
    let u' := hmacSha256 password u
    pbkdf2Repeat password n u' (xorBytes t u')

/-- `T[i]` (46_hash_primitives.md R175). -/
def pbkdf2Block (password salt : List Byte) (c i : Nat) : List Byte :=
  let u := hmacSha256 password (salt ++ bytesBE i 4)
  pbkdf2Repeat password (c - 1) u u

/-- `PBKDF2_HMAC_SHA256(password, salt, c, dkLen)` (46_hash_primitives.md R175); `(dkLen + 31) / 32` is `ceil(dkLen / 32)`. -/
def pbkdf2 (password salt : List Byte) (c dkLen : Nat) : List Byte :=
  ((List.range ((dkLen + 31) / 32)).flatMap fun i => pbkdf2Block password salt c (i + 1)).take dkLen

end Sys2Proof.Machine
end

