-- ==== Sys2Proof/Config.lean ====
section
/-!
DEFINITION. What an implementation fixes (spec 00_scope.md R5, R6) and the free values (10_state.md R29).
-/
namespace Sys2Proof

/-- The capacities the spec leaves to the implementation (00_scope.md R5). They are arguments of the model: a machine
carries them in its state and nothing changes them (log entry 1). -/
structure Params where
  /-- Capacity in bytes of `SEC`, `OUT` and each share slot. -/
  maxLen : Nat
  /-- Capacity in bytes of `PASS`. -/
  maxPass : Nat
  /-- Capacity in 10-bit words of `WORDS`. -/
  maxWords : Nat
deriving DecidableEq, Repr

/-- The defaults of 00_scope.md R5. -/
def Config.defaultParams : Params := { maxLen := 256, maxPass := 256, maxWords := 256 }

/-- The constraint column of 00_scope.md R5; `(8 * n + 9) / 10` is `ceil(8n / 10)`. -/
abbrev Config.ParamsOk (p : Params) : Prop :=
  p.maxLen % 2 = 0 ∧ 16 ≤ p.maxLen ∧ p.maxLen ≤ 256 ∧ p.maxPass ≤ 256 ∧
    7 + (8 * p.maxLen + 9) / 10 ≤ p.maxWords ∧ p.maxWords ≤ 256

/-- `DIGEST_LENGTH` (00_scope.md R6, 42_shamir.md R110). -/
def Config.digestLength : Nat := 4

/-- `MAX_SHARE_COUNT`, also the number of slots (00_scope.md R6, 42_shamir.md R110, 10_state.md R24). -/
def Config.maxShareCount : Nat := 16

/-- The shortest secret and share value, in bytes (00_scope.md R6). -/
def Config.minSecret : Nat := 16

/-- The shortest mnemonic, in words (00_scope.md R6). -/
def Config.minWords : Nat := 20

/-- The base iteration count (00_scope.md R6). -/
def Config.baseIterations : Nat := 10000

/-- The names of the draws of one `SPLIT` command (42_shamir.md R115): the padding, and the random share of index `i`. -/
inductive DrawName where
  /-- `Draw("pad", n)`. -/
  | pad
  /-- `Draw("share", i, n)`. -/
  | share (i : Nat)
deriving DecidableEq, Repr

/-- FREE VALUE (log entry 4). Byte `j` of the draw `name` of the `serial`-th command that takes draws
(10_state.md R29: "`n` bytes of any value"). It has no body: nothing can evaluate it, so a claim holds for every
value of every draw. -/
opaque Config.drawByte (serial : Nat) (name : DrawName) (j : Nat) : Byte

end Sys2Proof
end

