-- ==== Sys2Proof/Machine/State.lean ====
section
/-!
DEFINITION. The state of one GF256 CORE (spec 10_state.md), plain data, and the state after reset (R30). Beside the
spec's cells it holds four fields of the model's own: `params`, `turns`, `rdata`, `drawSerial` (log entries 1 to 4).
-/
namespace Sys2Proof.Machine

/-- An array of cells of width `w`: the pairs (element number, value) of the elements that are not 0, in rising order.
An element that is not listed reads 0, the reset content of every cell (10_state.md R30). The 8-bit arrays are lists of
`Host.Cell`. -/
abbrev Memory (w : Nat) := List (Nat × BitVec w)

/-- The five bits of `STATUS` (10_state.md R17). -/
structure Status where
  /-- Bit 0: a command has been issued and has not completed. -/
  busy : Bool
  /-- Bit 1: the last issued command has completed. -/
  done : Bool
  /-- Bit 2: the last completed command ended with an error. -/
  error : Bool
  /-- Bit 8, sticky: an access other than a read of `STATUS` was made while busy. -/
  haz : Bool
  /-- Bit 9, sticky: an access was refused while idle. -/
  badacc : Bool
deriving DecidableEq, Repr

/-- The catalogue of errors (60_exceptions.md R210). -/
inductive CmdError where
  /-- Code 0x01, `SPLIT`, `RECOVER`. -/
  | invalidThreshold
  /-- Code 0x02, `SPLIT`. -/
  | tooManyShares
  /-- Code 0x03, `INTERP`, `RECOVER`. -/
  | inconsistentShareLength
  /-- Code 0x04, `RECOVER`. -/
  | digestMismatch
  /-- Code 0x05, `MNDEC`. -/
  | mnemonicTooShort
  /-- Code 0x06, `MNDEC`. -/
  | invalidChecksum
  /-- Code 0x07, `MNDEC`. -/
  | invalidPadding
  /-- Code 0x08, host only, never the block (60_exceptions.md R216). -/
  | inconsistentHeader
  /-- Code 0x09, host only, never the block (60_exceptions.md R216). -/
  | insufficientMemberShares
  /-- Code 0x0A, host only, never the block (60_exceptions.md R216). -/
  | insufficientGroups
  /-- Code 0x0B, host only, never the block (60_exceptions.md R216). -/
  | invalidWord
  /-- Code 0x0C, `ENCRYPT`. -/
  | invalidPassphraseCharset
  /-- Code 0x0D, `MNENC`, `MNDEC`. -/
  | groupCountInconsistent
  /-- Code 0x80, any word that selects no command. -/
  | illegalCommand
  /-- Code 0x81, every command that reads a length. -/
  | badLength
  /-- Code 0x82, `MNENC`. -/
  | badField
  /-- Code 0x83, `INTERP`, `RECOVER`. -/
  | badShareCount
  /-- Code 0x84, `INTERP`, `RECOVER`. -/
  | duplicateIndex
deriving DecidableEq, Repr

/-- What `raise E(info)` carries (00_scope.md R7). -/
structure Raise where
  /-- The error. -/
  err : CmdError
  /-- The value for `INFO`. -/
  info : Word
deriving DecidableEq, Repr

/-- The header fields of a mnemonic, thresholds and counts with their true values (10_state.md R12, 45_mnemonic.md R152). -/
structure Header where
  /-- `ID`. -/
  id : BitVec 15
  /-- `EXT`. -/
  extFlag : BitVec 1
  /-- `ITEXP`. -/
  itexp : BitVec 4
  /-- `GI`. -/
  gi : BitVec 4
  /-- `GT`. -/
  gt : BitVec 5
  /-- `GC`. -/
  gc : BitVec 5
  /-- `MI`. -/
  mi : BitVec 4
  /-- `MT`. -/
  mt : BitVec 5
deriving DecidableEq, Repr

/-- One access of the host port (20_memory.md R40). `size` is in bytes; only 4 is accepted (R42). -/
inductive Access where
  /-- `MemRead(addr, size)`. -/
  | read (addr : Offset) (size : Nat)
  /-- `MemWrite(addr, size, v)`. -/
  | write (addr : Offset) (size : Nat) (v : Word)
deriving DecidableEq, Repr

/-- Whose step comes next (60_exceptions.md R213, 70_reset_and_hazards.md R240). -/
inductive Turn where
  /-- The host makes one access. -/
  | host (a : Access)
  /-- The block takes its step, if it has one to take. -/
  | block
  /-- The reset step. -/
  | reset
deriving DecidableEq, Repr

/-- The cells of the window (20_memory.md R41), by name. -/
inductive PortCell where
  | cmd
  | status
  | err
  | info
  | r0
  | olen
  | len
  | plen
  | wlen
  | id
  | extFlag
  | itexp
  | gi
  | gt
  | gc
  | mi
  | mt
  | svalid
  | sx (s : Nat)
  | slen (s : Nat)
  | sec (j : Nat)
  | pass (j : Nat)
  | words (j : Nat)
  | out (j : Nat)
  | sdata (s j : Nat)
deriving DecidableEq, Repr

/-- The state of one block. -/
@[ext]
structure State where
  /-- The capacities (00_scope.md R5); the model's own field, no step changes it (log entry 1). -/
  params : Params
  /-- `CMD` (10_state.md R16). -/
  cmd : Word
  /-- `STATUS` (10_state.md R17). -/
  status : Status
  /-- `ERR` (10_state.md R18). -/
  err : Byte
  /-- `INFO` (10_state.md R19). -/
  info : Word
  /-- `R0` (10_state.md R20). -/
  r0 : Word
  /-- `OLEN` (10_state.md R21). -/
  olen : Half
  /-- `LEN` (10_state.md R12). -/
  len : Half
  /-- `PLEN` (10_state.md R12). -/
  plen : Half
  /-- `WLEN` (10_state.md R12). -/
  wlen : Half
  /-- `ID` (10_state.md R12). -/
  id : BitVec 15
  /-- `EXT` (10_state.md R12). -/
  extFlag : BitVec 1
  /-- `ITEXP` (10_state.md R12). -/
  itexp : BitVec 4
  /-- `GI` (10_state.md R12). -/
  gi : BitVec 4
  /-- `GT` (10_state.md R12). -/
  gt : BitVec 5
  /-- `GC` (10_state.md R12). -/
  gc : BitVec 5
  /-- `MI` (10_state.md R12). -/
  mi : BitVec 4
  /-- `MT` (10_state.md R12). -/
  mt : BitVec 5
  /-- `SVALID` (10_state.md R24): bit `s` says that slot `s` is valid. -/
  svalid : Half
  /-- `SX[s]` (10_state.md R24). -/
  sx : Memory 8
  /-- `SLEN[s]` (10_state.md R24). -/
  slen : Memory 16
  /-- `SDATA[s][j]` (10_state.md R24), element `256 * s + j`: the order of the window (20_memory.md R41). -/
  sdata : Memory 8
  /-- `SEC[j]` (10_state.md R26). -/
  sec : Memory 8
  /-- `PASS[j]` (10_state.md R26). -/
  pass : Memory 8
  /-- `WORDS[j]` (10_state.md R26). -/
  words : Memory 10
  /-- `OUT[j]` (10_state.md R26). -/
  out : Memory 8
  /-- The turns still to come; the model's own field (log entry 2). -/
  turns : List Turn
  /-- What the port answered to the last read; the model's own field (log entry 3). -/
  rdata : Word
  /-- How many commands have taken draws; the model's own field (log entry 4). -/
  drawSerial : Nat
deriving DecidableEq, Repr

/-- Reasons for the machine to stop. There is none: every command word, every state and every access has a defined
outcome (93_implementation_defined.md part 2), and a command error is a completed command (60_exceptions.md R214). -/
inductive Fault where
deriving DecidableEq, Repr

/-- Reasons for an instruction to have no meaning. -/
inductive Refusal where
  /-- An instruction whose arm of `exec` holds no meaning yet; safe. No arm raises it. -/
  | notModelled (mnemonic : String)
deriving DecidableEq, Repr

/-- The machine right after reset: every cell is 0 (10_state.md R30, 70_reset_and_hazards.md R240). The capacities are
the spec's defaults (00_scope.md R5). DESIGN CHOICE (log entries 2, 3, 4): no turn waits, the port has answered 0, no
draw has been taken. -/
def State.reset : State where
  params := Config.defaultParams
  cmd := 0
  status := { busy := false, done := false, error := false, haz := false, badacc := false }
  err := 0
  info := 0
  r0 := 0
  olen := 0
  len := 0
  plen := 0
  wlen := 0
  id := 0
  extFlag := 0
  itexp := 0
  gi := 0
  gt := 0
  gc := 0
  mi := 0
  mt := 0
  svalid := 0
  sx := []
  slen := []
  sdata := []
  sec := []
  pass := []
  words := []
  out := []
  turns := []
  rdata := 0
  drawSerial := 0

end Sys2Proof.Machine
end

