-- ==== Sys2Proof/Machine/Flags.lean ====
section
/-!
DEFINITION. The block has no arithmetic flags (spec 10_state.md R15): its flags are the bits of `STATUS` (R17), and the
codes an error leaves in `ERR` (60_exceptions.md R210).
-/
namespace Sys2Proof.Machine

/-- A flag as a number, 0 or 1. -/
def flagBit (b : Bool) : Nat := if b then 1 else 0

/-- `STATUS` as the host reads it: bits 0, 1, 2, 8, 9, every other bit 0 (10_state.md R17). -/
def Status.word (t : Status) : Word :=
  BitVec.ofNat 32 (flagBit t.busy + 2 * flagBit t.done + 4 * flagBit t.error + 256 * flagBit t.haz + 512 * flagBit t.badacc)

/-- Command issue: `BUSY <- 1; DONE <- 0; ERROR <- 0`, sticky bits kept (30_encoding.md R61). -/
def Status.issued (t : Status) : Status := { t with busy := true, done := false, error := false }

/-- Completion: `BUSY <- 0; DONE <- 1` (60_exceptions.md R212). -/
def Status.completed (t : Status) : Status := { t with busy := false, done := true }

/-- `ERROR <- 1` (60_exceptions.md R214). -/
def Status.failed (t : Status) : Status := { t with error := true }

/-- A refused access while busy (20_memory.md R45). -/
def Status.withHaz (t : Status) : Status := { t with haz := true }

/-- A refused access while idle (20_memory.md R46). -/
def Status.withBadacc (t : Status) : Status := { t with badacc := true }

/-- The code of an error in `ERR` (60_exceptions.md R210). -/
def CmdError.code : CmdError → Byte
  | .invalidThreshold => 0x01
  | .tooManyShares => 0x02
  | .inconsistentShareLength => 0x03
  | .digestMismatch => 0x04
  | .mnemonicTooShort => 0x05
  | .invalidChecksum => 0x06
  | .invalidPadding => 0x07
  | .inconsistentHeader => 0x08
  | .insufficientMemberShares => 0x09
  | .insufficientGroups => 0x0A
  | .invalidWord => 0x0B
  | .invalidPassphraseCharset => 0x0C
  | .groupCountInconsistent => 0x0D
  | .illegalCommand => 0x80
  | .badLength => 0x81
  | .badField => 0x82
  | .badShareCount => 0x83
  | .duplicateIndex => 0x84

end Sys2Proof.Machine
end

