-- ==== Sys2Proof/Machine/Ops.lean ====
section
/-!
DEFINITION. The named operations every command is built from: reading and writing arrays of cells, the common
completion effects (spec 60_exceptions.md R212), the error report (R214, the block's whole trap entry, R220), command
issue (30_encoding.md R61, which clears the report: the block's whole trap return, R221), the draws (10_state.md R29)
and the reset step (70_reset_and_hazards.md R240).
-/
namespace Sys2Proof.Machine

/-! ### Arrays of cells -/

/-- Element `k`; an element that is not listed is 0. -/
def Memory.read {w : Nat} (m : Memory w) (k : Nat) : BitVec w :=
  match m with
  | [] => 0
  | (j, u) :: rest => if j = k then u else Memory.read rest k

/-- The array without element `k` (that is, with 0 there). -/
def Memory.erase {w : Nat} (m : Memory w) (k : Nat) : Memory w := m.filter fun c => c.1 != k

/-- Lists element `k`, which the array does not list yet, at its place in the rising order. -/
def Memory.insert {w : Nat} (m : Memory w) (k : Nat) (v : BitVec w) : Memory w :=
  match m with
  | [] => [(k, v)]
  | (j, u) :: rest => if k < j then (k, v) :: (j, u) :: rest else (j, u) :: Memory.insert rest k v

/-- Element `k` replaced by `v`; every other element is kept. Writing 0 removes the entry. -/
def Memory.write {w : Nat} (m : Memory w) (k : Nat) (v : BitVec w) : Memory w :=
  if v = 0 then Memory.erase m k else Memory.insert (Memory.erase m k) k v

/-- Elements `base`, `base + 1`, ... replaced by the values of a sequence. -/
def Memory.writeList {w : Nat} (m : Memory w) (base : Nat) (vs : List (BitVec w)) : Memory w :=
  match vs with
  | [] => m
  | v :: rest => Memory.writeList (Memory.write m base v) (base + 1) rest

/-- The array that holds a sequence from element `base` on, and 0 everywhere else. -/
def Memory.ofList {w : Nat} (base : Nat) (vs : List (BitVec w)) : Memory w :=
  match vs with
  | [] => []
  | v :: rest => if v = 0 then Memory.ofList (base + 1) rest else (base, v) :: Memory.ofList (base + 1) rest

/-- Elements `base .. base + n - 1`, in order. -/
def Memory.readList {w : Nat} (m : Memory w) (base n : Nat) : List (BitVec w) :=
  (List.range n).map fun j => Memory.read m (base + j)

/-- The canonical form: rising element numbers below the capacity, and no entry that is 0. -/
abbrev Memory.wf {w : Nat} (cap : Nat) (m : Memory w) : Prop :=
  m.Pairwise (fun a b => a.1 < b.1) ∧ ∀ c ∈ m, c.1 < cap ∧ c.2 ≠ 0

/-! ### The share table -/

/-- Where `SDATA[s][j]` stands in the array `sdata`, the order of the window (20_memory.md R41). -/
def slotKey (s j : Nat) : Nat := 256 * s + j

/-- `SX[s]` (10_state.md R24). -/
def slotX (st : State) (s : Nat) : Byte := Memory.read st.sx s

/-- `SLEN[s]` (10_state.md R24). -/
def slotLen (st : State) (s : Nat) : Half := Memory.read st.slen s

/-- `SDATA[s][0..n)` (10_state.md R24). -/
def slotData (st : State) (s n : Nat) : List Byte := Memory.readList st.sdata (slotKey s 0) n

/-! ### Issue and completion -/

/-- Command issue (30_encoding.md R61). -/
def issueCommand (c : Word) (s : State) : State :=
  { s with cmd := c, status := s.status.issued, err := 0, info := 0 }

/-- The effects every command has before its own writes: `R0`, `OLEN` and all of `OUT` become 0 (60_exceptions.md R212). -/
def clearResults (s : State) : State := { s with r0 := 0, olen := 0, out := [] }

/-- The effects every command has after its own writes (60_exceptions.md R212). -/
def finishCommand (s : State) : State := { s with status := s.status.completed }

/-- The error report: the whole effect of a command that reaches `raise` (60_exceptions.md R214). -/
def reportError (r : Raise) (s : State) : State :=
  finishCommand { clearResults s with status := s.status.failed, err := r.err.code, info := r.info }

/-- The block's step of a command on state `s` (60_exceptions.md R213): `r` is what the command's pseudocode comes to,
either `raise`, or the cleared state with the command's writes in it. -/
def completeCommand (s : State) (r : Except Raise State) : Host.Outcome State Fault Refusal :=
  match r with
  | .ok t => .next (finishCommand t)
  | .error e => .next (reportError e s)

/-- A word that selects no command completes with `IllegalCommand` and itself in `INFO` (30_encoding.md R64). -/
def completeIllegal (s : State) : State := reportError ⟨.illegalCommand, s.cmd⟩ s

/-! ### Draws -/

/-- `Draw(name, n)` of the command that would be the next to take draws (10_state.md R29). FREE VALUE, log entry 4. -/
def drawBytes (s : State) (name : DrawName) (n : Nat) : List Byte :=
  (List.range n).map fun j => Config.drawByte s.drawSerial name j

/-! ### Reset -/

/-- The reset step (70_reset_and_hazards.md R240, R241): every cell becomes 0, sticky bits and a pending command with
it. The model's own fields are no cells and keep their values (log entries 1 to 4). -/
def resetBlock (s : State) : State :=
  { State.reset with params := s.params, turns := s.turns, rdata := s.rdata, drawSerial := s.drawSerial }

end Sys2Proof.Machine
end

