-- ==== Sys2Proof/Machine/Operands.lean ====
section
/-!
DEFINITION. The operands a command reads from cells (spec 30_encoding.md R63: by name; there are no addressing modes).
-/
namespace Sys2Proof.Machine

/-- `SEC[0..LEN)` (10_state.md R26). -/
def secretBytes (s : State) : List Byte := Memory.readList s.sec 0 s.len.toNat

/-- `PASS[0..PLEN)` (10_state.md R26). -/
def passBytes (s : State) : List Byte := Memory.readList s.pass 0 s.plen.toNat

/-- `WORDS[0..WLEN)` (10_state.md R26). -/
def mnemonicWords (s : State) : List MnWord := Memory.readList s.words 0 s.wlen.toNat

/-- The header registers `ID` .. `MT` (10_state.md R12). -/
def headerRegs (s : State) : Header :=
  { id := s.id, extFlag := s.extFlag, itexp := s.itexp, gi := s.gi, gt := s.gt, gc := s.gc, mi := s.mi, mt := s.mt }

/-- The header registers replaced (45_mnemonic.md R158). -/
def writeHeaderRegs (h : Header) (s : State) : State :=
  { s with id := h.id, extFlag := h.extFlag, itexp := h.itexp, gi := h.gi, gt := h.gt, gc := h.gc, mi := h.mi, mt := h.mt }

/-- The valid set `V`, ascending (10_state.md R24). -/
def validSlots (s : State) : List Nat :=
  (List.range Config.maxShareCount).filter fun i => s.svalid.getLsbD i

/-- The share list `P` over the slots of a list, `n` bytes of each (10_state.md R24). -/
def sharesOf (s : State) (slots : List Nat) (n : Nat) : List (Byte × List Byte) :=
  slots.map fun i => (slotX s i, slotData s i n)

/-- A 32-bit `INFO` value from a number (60_exceptions.md R211). -/
def infoOf (n : Nat) : Word := BitVec.ofNat 32 n

/-- The `INFO` value `(hi << 8) + lo` (60_exceptions.md R211). -/
def infoPair (hi lo : Nat) : Word := BitVec.ofNat 32 (hi * 2 ^ 8 + lo)

/-- A byte result in `R0` and nothing else: what the GF(256) commands and `RSVERIFY` write (10_state.md R20). -/
def writeR0 (v : Word) (s : State) : State := { s with r0 := v }

/-- `OUT[0..n) <- bs; OLEN <- n` with `n = len(bs)`, on a state whose `OUT` is clear (10_state.md R21, R26). -/
def writeOut (bs : List Byte) (s : State) : State :=
  { s with out := Memory.ofList 0 bs, olen := BitVec.ofNat 16 bs.length }

/-- `WORDS[base..) <- ws; WLEN <- base + len(ws)` (44_rs1024.md R144, 45_mnemonic.md R156). -/
def writeWords (base : Nat) (ws : List MnWord) (s : State) : State :=
  { s with words := Memory.writeList s.words base ws, wlen := BitVec.ofNat 16 (base + ws.length) }

/-- The share table after a `SPLIT` into the given shares of length `len` (42_shamir.md R115): slot `i` holds `x = i`
and share `i`, the slots above are cleared, and `SVALID = 2 ^ n - 1`. -/
def writeShareTable (shares : List (List Byte)) (len : Nat) (s : State) : State :=
  { s with
    svalid := BitVec.ofNat 16 (2 ^ shares.length - 1)
    sx := Memory.ofList 0 ((List.range shares.length).map (BitVec.ofNat 8))
    slen := Memory.ofList 0 (List.replicate shares.length (BitVec.ofNat 16 len))
    sdata := (List.range shares.length).flatMap fun i => Memory.ofList (slotKey i 0) (shares.getD i []) }

end Sys2Proof.Machine
end

