-- ==== Sys2Proof/Machine/Feistel.lean ====
section
/-!
DEFINITION. The Feistel encryption layer, commands `ENCRYPT` and `DECRYPT` (spec 43_feistel.md).
-/
namespace Sys2Proof.Machine

/-- The iteration count of one PBKDF2 call, `(10000 << e) div 4` (43_feistel.md R131). -/
def roundIterations (e : Nat) : Nat := Config.baseIterations * 2 ^ e / 4

/-- `"shamir"` as bytes (00_scope.md R7). -/
def shamirBytes : List Byte := [0x73, 0x68, 0x61, 0x6D, 0x69, 0x72]

/-- The salt before the running half: empty for an extendable backup, else `"shamir" ‖ [id >> 8, id and 0xFF]`
(43_feistel.md R130; big-endian, 20_memory.md R47). -/
def feistelSalt (id : BitVec 15) (ext : BitVec 1) : List Byte :=
  if ext = 1 then [] else shamirBytes ++ bytesBE id.toNat 2

/-- The round function value `f` of round `r` on the right half (43_feistel.md R130). -/
def feistelF (pass salt : List Byte) (c : Nat) (r : Byte) (right : List Byte) (h : Nat) : List Byte :=
  pbkdf2 (r :: pass) (salt ++ right) c h

/-- One round: `(L, R) <- (R, L xor f)` (43_feistel.md R130). -/
def feistelRound (pass salt : List Byte) (c h : Nat) (lr : List Byte × List Byte) (r : Byte) : List Byte × List Byte :=
  (lr.2, xorBytes lr.1 (feistelF pass salt c r lr.2 h))

/-- The order of the rounds: 0 to 3 to encrypt, 3 to 0 to decrypt (43_feistel.md R130). -/
def roundOrder (enc : Bool) : List Byte := if enc then [0, 1, 2, 3] else [3, 2, 1, 0]

/-- `Crypt(secret, pass, e, id, ext, enc)` (43_feistel.md R130); the result is `R ‖ L`. -/
def crypt (secret pass : List Byte) (e : BitVec 4) (id : BitVec 15) (ext : BitVec 1) (enc : Bool) : List Byte :=
  let h := secret.length / 2
  let lr := (roundOrder enc).foldl (feistelRound pass (feistelSalt id ext) (roundIterations e.toNat) h)
    (secret.take h, secret.drop h)
  lr.2 ++ lr.1

/-- Whether `LEN` is no length of a secret: odd, below 16 or above the capacity (43_feistel.md R132, 45_mnemonic.md R155). -/
def badSecretLength (s : State) : Bool :=
  decide (s.len.toNat % 2 = 1) || decide (s.len.toNat < Config.minSecret) || decide (s.params.maxLen < s.len.toNat)

/-- Whether a byte is outside printable ASCII, 0x20..0x7E (43_feistel.md R132). -/
def notPrintable (b : Byte) : Bool := decide (b < 0x20) || decide (0x7E < b)

/-- The lowest index of a passphrase byte that is not printable ASCII (43_feistel.md R132, 60_exceptions.md R211). -/
def firstNotPrintable (s : State) : Option Nat :=
  (List.range s.plen.toNat).find? fun i => notPrintable (Memory.read s.pass i)

/-- `OUT[0..n) <- Crypt(SEC[0..n), PASS[0..PLEN), ITEXP, ID, EXT, enc)` (43_feistel.md R132, R133). -/
def cryptResult (enc : Bool) (s : State) : State :=
  writeOut (crypt (secretBytes s) (passBytes s) s.itexp s.id s.extFlag enc) (clearResults s)

/-- The pseudocode of `ENCRYPT` (43_feistel.md R132). -/
def encryptBody (s : State) : Except Raise State :=
  if badSecretLength s then .error ⟨.badLength, infoOf s.len.toNat⟩
  else if s.params.maxPass < s.plen.toNat then .error ⟨.badLength, infoOf s.plen.toNat⟩
  else
    match firstNotPrintable s with
    | some i => .error ⟨.invalidPassphraseCharset, infoPair i (Memory.read s.pass i).toNat⟩
    | none => .ok (cryptResult true s)

/-- `ENCRYPT` (43_feistel.md R132). -/
def execEncrypt (s : State) : Host.Outcome State Fault Refusal :=
  completeCommand s (encryptBody s)

/-- The pseudocode of `DECRYPT` (43_feistel.md R133): no charset check. -/
def decryptBody (s : State) : Except Raise State :=
  if badSecretLength s then .error ⟨.badLength, infoOf s.len.toNat⟩
  else if s.params.maxPass < s.plen.toNat then .error ⟨.badLength, infoOf s.plen.toNat⟩
  else .ok (cryptResult false s)

/-- `DECRYPT` (43_feistel.md R133). -/
def execDecrypt (s : State) : Host.Outcome State Fault Refusal :=
  completeCommand s (decryptBody s)

end Sys2Proof.Machine
end

