-- ==== Sys2Proof/Machine/Rs1024.lean ====
section
/-!
DEFINITION. The RS1024 checksum, commands `RSCREATE` and `RSVERIFY` (spec 44_rs1024.md).
-/
namespace Sys2Proof.Machine

/-- The ten generator constants `GEN[0..9]`, 30 bits each (44_rs1024.md R140). -/
def rsGenerator : List (BitVec 30) :=
  [0x00E0E040, 0x01C1C080, 0x03838100, 0x07070200, 0x0E0E0009,
   0x1C0C2412, 0x38086C24, 0x3090FC48, 0x21B1F890, 0x03F3F120]

/-- The generator constants selected by the bits of `b`, combined by exclusive or (44_rs1024.md R141). -/
def rsFeedback (b : MnWord) : BitVec 30 :=
  (List.range 10).foldl (fun acc i => if b.getLsbD i then acc ^^^ rsGenerator.getD i 0 else acc) 0

/-- One value of `Polymod` (44_rs1024.md R141): drop the top 10 bits, shift the value in at the bottom, combine with the
constants the dropped bits select. The left shift of a 30-bit value is the shift of `chk and 0xFFFFF`. -/
def polymodStep (chk : BitVec 30) (v : MnWord) : BitVec 30 :=
  ((chk <<< 10) ^^^ v.setWidth 30) ^^^ rsFeedback (chk.extractLsb' 20 10)

/-- `Polymod(values)` (44_rs1024.md R141). -/
def polymod (values : List MnWord) : BitVec 30 := values.foldl polymodStep 1

/-- `Cust(0)`, `"shamir"` (44_rs1024.md R142). -/
def custShamir : List MnWord := [115, 104, 97, 109, 105, 114]

/-- `Cust(ext)` (44_rs1024.md R142): `"shamir"`, or `"shamir_extendable"`. -/
def customization (ext : BitVec 1) : List MnWord :=
  if ext = 1 then custShamir ++ [95, 101, 120, 116, 101, 110, 100, 97, 98, 108, 101] else custShamir

/-- `RsCreate(data, ext)` (44_rs1024.md R143): three words, most significant first. -/
def rsCreate (data : List MnWord) (ext : BitVec 1) : List MnWord :=
  let p := polymod (customization ext ++ data ++ [0, 0, 0]) ^^^ 1
  [p.extractLsb' 20 10, p.extractLsb' 10 10, p.extractLsb' 0 10]

/-- `RsVerify(data, ext)` (44_rs1024.md R143). -/
def rsVerify (data : List MnWord) (ext : BitVec 1) : Bool :=
  polymod (customization ext ++ data) == 1

/-- The pseudocode of `RSCREATE` (44_rs1024.md R144). -/
def rscreateBody (s : State) : Except Raise State :=
  if s.params.maxWords < s.wlen.toNat + 3 then .error ⟨.badLength, infoOf s.wlen.toNat⟩
  else .ok (writeWords s.wlen.toNat (rsCreate (mnemonicWords s) s.extFlag) (clearResults s))

/-- `RSCREATE` (44_rs1024.md R144). -/
def execRscreate (s : State) : Host.Outcome State Fault Refusal :=
  completeCommand s (rscreateBody s)

/-- The pseudocode of `RSVERIFY` (44_rs1024.md R145): a mismatch is a result, not an error. -/
def rsverifyBody (s : State) : Except Raise State :=
  if s.params.maxWords < s.wlen.toNat then .error ⟨.badLength, infoOf s.wlen.toNat⟩
  else .ok (writeR0 (if rsVerify (mnemonicWords s) s.extFlag then 1 else 0) (clearResults s))

/-- `RSVERIFY` (44_rs1024.md R145). -/
def execRsverify (s : State) : Host.Outcome State Fault Refusal :=
  completeCommand s (rsverifyBody s)

end Sys2Proof.Machine
end

