-- ==== Sys2Proof/Machine/Mnemonic.lean ====
section
/-!
DEFINITION. The mnemonic word-index encoder and decoder, commands `MNENC` and `MNDEC` (spec 45_mnemonic.md).
-/
namespace Sys2Proof.Machine

/-- `vw = ceil(8n / 10)`, the number of value words of an `n`-byte share value (45_mnemonic.md R150, R151). -/
def valueWordCount (n : Nat) : Nat := (8 * n + 9) / 10

/-- The four header words (45_mnemonic.md R152, word by word). -/
def headerWords (h : Header) : List MnWord :=
  [BitVec.ofNat 10 (h.id.toNat / 2 ^ 5),
   BitVec.ofNat 10 (h.id.toNat % 2 ^ 5 * 2 ^ 5 + h.extFlag.toNat * 2 ^ 4 + h.itexp.toNat),
   BitVec.ofNat 10 (h.gi.toNat * 2 ^ 6 + (h.gt.toNat - 1) * 2 ^ 2 + (h.gc.toNat - 1) / 4),
   BitVec.ofNat 10 ((h.gc.toNat - 1) % 4 * 2 ^ 8 + h.mi.toNat * 2 ^ 4 + (h.mt.toNat - 1))]

/-- `Unpack(w)` (45_mnemonic.md R157) on the first four words of a sequence. -/
def unpackHeader (ws : List MnWord) : Header :=
  let w0 := ws.getD 0 0
  let w1 := ws.getD 1 0
  let w2 := ws.getD 2 0
  let w3 := ws.getD 3 0
  { id := BitVec.ofNat 15 (w0.toNat * 2 ^ 5 + w1.toNat / 2 ^ 5)
    extFlag := w1.extractLsb' 4 1
    itexp := w1.extractLsb' 0 4
    gi := w2.extractLsb' 6 4
    gt := BitVec.ofNat 5 ((w2.extractLsb' 2 4).toNat + 1)
    gc := BitVec.ofNat 5 ((w2.extractLsb' 0 2).toNat * 2 ^ 2 + (w3.extractLsb' 8 2).toNat + 1)
    mi := w3.extractLsb' 4 4
    mt := BitVec.ofNat 5 ((w3.extractLsb' 0 4).toNat + 1) }

/-- `ValueWords(v)` (45_mnemonic.md R153). -/
def valueWords (v : List Byte) : List MnWord := wordsBE (intBE v) (valueWordCount v.length)

/-- The header and value words of a mnemonic, all but its checksum (45_mnemonic.md R156). -/
def mnemonicBody (h : Header) (v : List Byte) : List MnWord := headerWords h ++ valueWords v

/-- Whether a threshold or count register is outside 1..16 (45_mnemonic.md R155). -/
def outOfField (f : BitVec 5) : Bool := decide (f = 0) || decide (16 < f.toNat)

/-- The pseudocode of `MNENC` (45_mnemonic.md R155, R156). -/
def mnencBody (s : State) : Except Raise State :=
  if badSecretLength s then .error ⟨.badLength, infoOf s.len.toNat⟩
  else if outOfField s.gt then .error ⟨.badField, 1⟩
  else if outOfField s.gc then .error ⟨.badField, 2⟩
  else if outOfField s.mt then .error ⟨.badField, 3⟩
  else if s.gc < s.gt then .error ⟨.groupCountInconsistent, infoPair s.gc.toNat s.gt.toNat⟩
  else
    let body := mnemonicBody (headerRegs s) (secretBytes s)
    .ok (writeWords 0 (body ++ rsCreate body s.extFlag) (clearResults s))

/-- `MNENC` (45_mnemonic.md R156). -/
def execMnenc (s : State) : Host.Outcome State Fault Refusal :=
  completeCommand s (mnencBody s)

/-- `pad`, the padding bits of `vw` value words (45_mnemonic.md R154). -/
def paddingBits (vw : Nat) : Nat := 10 * vw % 16

/-- `n`, the bytes of a share value of `vw` value words (45_mnemonic.md R154). -/
def valueLength (vw : Nat) : Nat := (10 * vw - paddingBits vw) / 8

/-- The integer of the value words of a mnemonic (45_mnemonic.md R158). -/
def valueInteger (ws : List MnWord) : Nat := intWords ((ws.drop 4).take (ws.length - 7))

/-- The pseudocode of `MNDEC` (45_mnemonic.md R158). -/
def mndecBody (s : State) : Except Raise State :=
  let k := s.wlen.toNat
  if s.params.maxWords < k then .error ⟨.badLength, infoOf k⟩
  else if k < Config.minWords then .error ⟨.mnemonicTooShort, infoOf k⟩
  else
    let w := mnemonicWords s
    let f := unpackHeader w
    let vw := k - 7
    if !rsVerify w f.extFlag then .error ⟨.invalidChecksum, 0⟩
    else if 8 < paddingBits vw then .error ⟨.invalidPadding, infoOf (paddingBits vw)⟩
    else if 2 ^ (8 * valueLength vw) ≤ valueInteger w then .error ⟨.invalidPadding, infoOf (paddingBits vw)⟩
    else if f.gc < f.gt then .error ⟨.groupCountInconsistent, infoPair f.gc.toNat f.gt.toNat⟩
    else if s.params.maxLen < valueLength vw then .error ⟨.badLength, infoOf (valueLength vw)⟩
    else .ok (writeHeaderRegs f (writeOut (bytesBE (valueInteger w) (valueLength vw)) (clearResults s)))

/-- `MNDEC` (45_mnemonic.md R158). -/
def execMndec (s : State) : Host.Outcome State Fault Refusal :=
  completeCommand s (mndecBody s)

end Sys2Proof.Machine
end

