-- ==== Sys2Proof/Machine/Gf256.lean ====
section
/-!
DEFINITION. The GF(256) tables, the multiplier and the commands `GFMUL`, `GFEXP`, `GFLOG` (spec 40_gf256.md).
-/
namespace Sys2Proof.Machine

/-- The rows of the table `EXP` as 40_gf256.md R80 prints them: row `0xR_` is one number of sixteen bytes, column 0 most
significant. -/
def expRows : List Nat :=
  [0x0103050F113355FF1A2E7296A1F81335, 0x5FE13848D87395A4F702060A1E2266AA,
   0xE5345CE43759EB266ABED97090ABE631, 0x53F5040C143C44CC4FD168B8D36EB2CD,
   0x4CD467A9E03B4DD762A6F10818287888, 0x839EB9D06BBDDC7F8198B3CE49DB769A,
   0xB5C457F9103050F00B1D2769BBD661A3, 0xFE192B7D8792ADEC2F7193AEE92060A0,
   0xFB163A4ED26DB7C25DE73256FA153F41, 0xC35EE23D47C940C05BED2C749CBFDA75,
   0x9FBAD564ACEF2A7E829DBCDF7A8E8980, 0x9BB6C158E82365AFEA256FB1C843C554,
   0xFC1F2163A5F407091B2D7799B0CB46CA, 0x45CF4ADE798B8691A8E33E42C651F30E,
   0x12365AEE297B8D8C8F8A8594A7F20D17, 0x394BDD7C8497A2FD1C246CB4C752F601]

/-- The rows of the table `LOG` as 40_gf256.md R81 prints them. -/
def logRows : List Nat :=
  [0x0000190132021AC64BC71B6833EEDF03, 0x6404E00E348D81EF4C7108C8F8691CC1,
   0x7DC21DB5F9B9276A4DE4A6729AC90978, 0x652F8A05210FE12412F082453593DA8E,
   0x968FDBBD36D0CE94135CD2F140468338, 0x66DDFD30BF068B62B325E29822889110,
   0x7E6E48C3A3B61E423A6B2854FA853DBA, 0x2B790A159B9F5ECA4ED4ACE5F373A757,
   0xAF58A850F4EAD6744FAEE9D5E7E6ADE8, 0x2CD7757AEB160BF559CB5FB09CA951A0,
   0x7F0CF66F17C449ECD8431F2DA4767BB7, 0xCCBB3E5AFB60B1863B52A16CAA55299D,
   0x97B2879061BEDCFCBC95CFCD373F5BD1, 0x5339843C41A26D47142A9E5D56F2D3AB,
   0x441192D923202E89B47CB8267799E3A5, 0x674AEDDEC531FE180D638C80C0F77007]

/-- Entry `i` of a table printed in rows of sixteen bytes. -/
def tableEntry (rows : List Nat) (i : Nat) : Nat :=
  rows.getD (i / 16) 0 / 2 ^ (8 * (15 - i % 16)) % 256

/-- `EXP[i]`, `i` in 0..255 (40_gf256.md R80). -/
def gfExp (i : Nat) : Byte := BitVec.ofNat 8 (tableEntry expRows i)

/-- `LOG[a]` (40_gf256.md R81); `LOG[0] = 0`. -/
def gfLog (a : Byte) : Nat := tableEntry logRows a.toNat

/-- `GfMul(a, b)` (40_gf256.md R83). -/
def gfMul (a b : Byte) : Byte :=
  if a = 0 ∨ b = 0 then 0 else gfExp ((gfLog a + gfLog b) % 255)

/-- `GFMUL a, b` (40_gf256.md R84): `R0 <- zext_32(GfMul(a, b))`. -/
def execGfmul (a b : Byte) (s : State) : Host.Outcome State Fault Refusal :=
  completeCommand s (.ok (writeR0 ((gfMul a b).setWidth 32) (clearResults s)))

/-- `GFEXP i` (40_gf256.md R85): `R0 <- zext_32(EXP[i])`; the index is not reduced. -/
def execGfexp (i : Byte) (s : State) : Host.Outcome State Fault Refusal :=
  completeCommand s (.ok (writeR0 ((gfExp i.toNat).setWidth 32) (clearResults s)))

/-- `GFLOG a` (40_gf256.md R86): `R0 <- zext_32(LOG[a])`; `GFLOG 0` is no error. -/
def execGflog (a : Byte) (s : State) : Host.Outcome State Fault Refusal :=
  completeCommand s (.ok (writeR0 (BitVec.ofNat 32 (gfLog a)) (clearResults s)))

end Sys2Proof.Machine
end

