-- ==== Sys2Proof/Machine/Interp.lean ====
section
/-!
DEFINITION. The Lagrange evaluator and the command `INTERP` (spec 41_interp.md).
-/
namespace Sys2Proof.Machine

/-- `sum over j of LOG[x_j xor x]` over the points of `P` (41_interp.md R100): `logProd`, and with `x = x_i` the sum
`s_i`, whose term `j = i` is `LOG[0] = 0`. The sum is not reduced. -/
def logSum (P : List (Byte × List Byte)) (x : Byte) : Nat :=
  (P.map fun p => gfLog (p.1 ^^^ x)).sum

/-- `lb_i`, the logarithm of the Lagrange basis value of the point `xi` at `x` (41_interp.md R100): the mathematical
`mod`, so 0..254 also when the difference is negative. -/
def basisLog (P : List (Byte × List Byte)) (x xi : Byte) : Nat :=
  (((logSum P x : Int) - gfLog (xi ^^^ x) - logSum P xi) % 255).toNat

/-- What a data byte `v` contributes under a basis value of logarithm `lb` (41_interp.md R100); a zero byte contributes
nothing. -/
def basisTerm (v : Byte) (lb : Nat) : Byte :=
  if v = 0 then 0 else gfExp ((gfLog v + lb) % 255)

/-- Byte `m` of the interpolation: the terms of all points, accumulated by exclusive or (41_interp.md R100). -/
def interpByte (P : List (Byte × List Byte)) (x : Byte) (m : Nat) : Byte :=
  P.foldl (fun acc p => acc ^^^ basisTerm (p.2.getD m 0) (basisLog P x p.1)) 0

/-- The length `n` all byte sequences of a share list have (41_interp.md R100); 0 for the empty list, which no command
interpolates (log entry 6). -/
def shareLength (P : List (Byte × List Byte)) : Nat :=
  match P with
  | [] => 0
  | p :: _ => p.2.length

/-- `Interp(P, x)` (41_interp.md R100): the vector itself where `x` is a point's coordinate, else byte by byte. -/
def interpolate (P : List (Byte × List Byte)) (x : Byte) : List Byte :=
  match P.find? (fun p => p.1 == x) with
  | some p => p.2
  | none => (List.range (shareLength P)).map (interpByte P x)

/-- The first pair of slots `s`, `t` of an ascending list with equal `SX`, pairs ordered by `s`, then `t`
(41_interp.md R101, 60_exceptions.md R211). -/
def firstDuplicate (x : Nat → Byte) : List Nat → Option (Nat × Nat)
  | [] => none
  | s :: rest =>
    match rest.find? (fun t => x t == x s) with
    | some t => some (s, t)
    | none => firstDuplicate x rest

/-- `CheckShares()` (41_interp.md R101): the share list and its common length, or the first check that fails. -/
def checkShares (st : State) : Except Raise (List (Byte × List Byte) × Nat) :=
  match validSlots st with
  | [] => .error ⟨.badShareCount, 0⟩
  | s0 :: rest =>
    let slots := s0 :: rest
    match slots.find? (fun s => slotLen st s == 0 || decide (st.params.maxLen < (slotLen st s).toNat)) with
    | some s => .error ⟨.badLength, infoOf (slotLen st s).toNat⟩
    | none =>
      match slots.find? (fun s => slotLen st s != slotLen st s0) with
      | some s => .error ⟨.inconsistentShareLength, infoOf ((slotLen st s).toNat * 2 ^ 16 + (slotLen st s0).toNat)⟩
      | none =>
        match firstDuplicate (slotX st) slots with
        | some (s, t) => .error ⟨.duplicateIndex, infoPair t s⟩
        | none => .ok (sharesOf st slots (slotLen st s0).toNat, (slotLen st s0).toNat)

/-- The pseudocode of `INTERP x` (41_interp.md R102). -/
def interpBody (x : Byte) (s : State) : Except Raise State :=
  match checkShares s with
  | .error e => .error e
  | .ok (P, _) => .ok (writeOut (interpolate P x) (clearResults s))

/-- `INTERP x` (41_interp.md R102). -/
def execInterp (x : Byte) (s : State) : Host.Outcome State Fault Refusal :=
  completeCommand s (interpBody x s)

end Sys2Proof.Machine
end

