-- ==== Sys2Proof/Machine/Shamir.lean ====
section
/-!
DEFINITION. The Shamir splitter and recoverer, commands `SPLIT` and `RECOVER` (spec 42_shamir.md).
-/
namespace Sys2Proof.Machine

/-- `DIGEST_INDEX` (42_shamir.md R111). -/
def digestIndex : Byte := 254

/-- `SECRET_INDEX` (42_shamir.md R111). -/
def secretIndex : Byte := 255

/-- `Digest(pad, secret)` (42_shamir.md R112): the padding is the key, the secret the message, the first 4 bytes are kept. -/
def shareDigest (pad secret : List Byte) : List Byte :=
  (hmacSha256 pad secret).take Config.digestLength

/-- The digest share: digest first, padding after (42_shamir.md R113). -/
def digestShare (pad secret : List Byte) : List Byte := shareDigest pad secret ++ pad

/-- The interpolation basis of a split with threshold above 1 (42_shamir.md R114, R115): the random shares at
x = 0, 1, ..., the digest share at 254, the secret at 255. -/
def splitBase (secret pad : List Byte) (rnd : List (List Byte)) : List (Byte × List Byte) :=
  ((List.range rnd.length).map fun i => (BitVec.ofNat 8 i, rnd.getD i [])) ++
    [(digestIndex, digestShare pad secret), (secretIndex, secret)]

/-- The `n` shares of a split with threshold above 1, given its draws (42_shamir.md R115): the random shares, then the
interpolated ones at the sequential x coordinates. -/
def splitShares (n : Nat) (secret pad : List Byte) (rnd : List (List Byte)) : List (List Byte) :=
  rnd ++ (List.range (n - rnd.length)).map fun i =>
    interpolate (splitBase secret pad rnd) (BitVec.ofNat 8 (rnd.length + i))

/-- The padding a `SPLIT` on state `s` draws (42_shamir.md R115). -/
def drawnPad (s : State) : List Byte := drawBytes s .pad (s.len.toNat - Config.digestLength)

/-- The `t - 2` random shares a `SPLIT t, n` on state `s` draws (42_shamir.md R115). -/
def drawnShares (t : Nat) (s : State) : List (List Byte) :=
  (List.range (t - 2)).map fun i => drawBytes s (.share i) s.len.toNat

/-- The pseudocode of `SPLIT t, n` (42_shamir.md R115). -/
def splitBody (t n : Nat) (s : State) : Except Raise State :=
  if t = 0 ∨ n < t then .error ⟨.invalidThreshold, infoPair n t⟩
  else if Config.maxShareCount < n then .error ⟨.tooManyShares, infoOf n⟩
  else if s.len = 0 ∨ s.params.maxLen < s.len.toNat then .error ⟨.badLength, infoOf s.len.toNat⟩
  else if t = 1 then
    .ok (writeShareTable (List.replicate n (secretBytes s)) s.len.toNat (clearResults s))
  else if s.len.toNat < Config.digestLength then .error ⟨.badLength, infoOf s.len.toNat⟩
  else
    .ok { writeShareTable (splitShares n (secretBytes s) (drawnPad s) (drawnShares t s)) s.len.toNat (clearResults s)
          with drawSerial := s.drawSerial + 1 }

/-- `SPLIT t, n` (42_shamir.md R115). -/
def execSplit (t n : Nat) (s : State) : Host.Outcome State Fault Refusal :=
  completeCommand s (splitBody t n s)

/-- Whether the value interpolated at the digest index carries the digest of the recovered secret (42_shamir.md R113, R117). -/
def digestMatches (d secret : List Byte) : Bool :=
  shareDigest (d.drop Config.digestLength) secret == d.take Config.digestLength

/-- The pseudocode of `RECOVER t` (42_shamir.md R117). -/
def recoverBody (t : Nat) (s : State) : Except Raise State :=
  if t = 0 then .error ⟨.invalidThreshold, 0⟩
  else
    match checkShares s with
    | .error e => .error e
    | .ok (P, n) =>
      if t = 1 then
        match P with
        | [p] => .ok (writeOut p.2 (clearResults s))
        | _ => .error ⟨.badShareCount, infoOf P.length⟩
      else if n < Config.digestLength then .error ⟨.badLength, infoOf n⟩
      else if digestMatches (interpolate P digestIndex) (interpolate P secretIndex) then
        .ok (writeOut (interpolate P secretIndex) (clearResults s))
      else .error ⟨.digestMismatch, 0⟩

/-- `RECOVER t` (42_shamir.md R117). -/
def execRecover (t : Nat) (s : State) : Host.Outcome State Fault Refusal :=
  completeCommand s (recoverBody t s)

end Sys2Proof.Machine
end

