-- ==== Sys2Proof/Syntax.lean ====
section
/-!
DEFINITION. The twelve commands (spec 30_encoding.md R62), one constructor per row of the opcode map. Field elements,
table indices and evaluation points are bytes; thresholds and counts are numbers, whose bound WellFormed.lean states.
-/
namespace Sys2Proof

/-- One command. The operands are the fields `A` and `B` of the command word (30_encoding.md R63). -/
inductive Instr where
  /-- `GFMUL a, b` (40_gf256.md R84). -/
  | gfmul (a b : Byte)
  /-- `GFEXP i` (40_gf256.md R85). -/
  | gfexp (i : Byte)
  /-- `GFLOG a` (40_gf256.md R86). -/
  | gflog (a : Byte)
  /-- `INTERP x` (41_interp.md R102). -/
  | interp (x : Byte)
  /-- `SPLIT t, n`: threshold and share count (42_shamir.md R115). -/
  | split (t n : Nat)
  /-- `RECOVER t`: threshold (42_shamir.md R117). -/
  | recover (t : Nat)
  /-- `ENCRYPT` (43_feistel.md R132). -/
  | encrypt
  /-- `DECRYPT` (43_feistel.md R133). -/
  | decrypt
  /-- `RSCREATE` (44_rs1024.md R144). -/
  | rscreate
  /-- `RSVERIFY` (44_rs1024.md R145). -/
  | rsverify
  /-- `MNENC` (45_mnemonic.md R156). -/
  | mnenc
  /-- `MNDEC` (45_mnemonic.md R158). -/
  | mndec
deriving DecidableEq, Repr

end Sys2Proof
end

