-- ==== Sys2Proof/Machine/Dispatch.lean ====
section
/-!
DEFINITION. The meaning of every command (spec 30_encoding.md R62), one arm per constructor.
-/
namespace Sys2Proof.Machine

def exec (i : Instr) (s : State) : Host.Outcome State Fault Refusal :=
  match i with
  | .gfmul a b => Sys2Proof.Machine.execGfmul a b s
  | .gfexp k => Sys2Proof.Machine.execGfexp k s
  | .gflog a => Sys2Proof.Machine.execGflog a s
  | .interp x => Sys2Proof.Machine.execInterp x s
  | .split t n => Sys2Proof.Machine.execSplit t n s
  | .recover t => Sys2Proof.Machine.execRecover t s
  | .encrypt => Sys2Proof.Machine.execEncrypt s
  | .decrypt => Sys2Proof.Machine.execDecrypt s
  | .rscreate => Sys2Proof.Machine.execRscreate s
  | .rsverify => Sys2Proof.Machine.execRsverify s
  | .mnenc => Sys2Proof.Machine.execMnenc s
  | .mndec => Sys2Proof.Machine.execMndec s

end Sys2Proof.Machine
end

