-- ==== Sys2Proof/WellFormed.lean ====
section
/-!
DEFINITION. Which commands a command word can carry (spec 30_encoding.md R63): an operand is an 8-bit unsigned field.
-/
namespace Sys2Proof

/-- Every operand fits its 8-bit field. -/
def Instr.wellFormed : Instr → Bool
  | .gfmul _ _ => true
  | .gfexp _ => true
  | .gflog _ => true
  | .interp _ => true
  | .split t n => decide (t < 256) && decide (n < 256)
  | .recover t => decide (t < 256)
  | .encrypt => true
  | .decrypt => true
  | .rscreate => true
  | .rsverify => true
  | .mnenc => true
  | .mndec => true

end Sys2Proof
end

