-- ==== Sys2Proof/Decode.lean ====
section
/-!
DEFINITION. The command word and its decoding (spec 30_encoding.md R60 to R65), and the encoder written from the same
table. Decoding is total: a word that selects no command is rejected by name, and the machine completes it with
`IllegalCommand` whatever the name (R64).
-/
namespace Sys2Proof

/-- Why a word selects no command (30_encoding.md R64). -/
inductive IllegalWord where
  /-- `OPC` is none of the twelve opcodes. -/
  | unassignedOpcode
  /-- `Z` is not 0. -/
  | zNotZero
  /-- An operand field that the opcode's format does not use is not 0. -/
  | unusedOperandNotZero
deriving DecidableEq, Repr

/-- The opcode numbers of 30_encoding.md R62. -/
def Instr.opcode : Instr → Byte
  | .gfmul _ _ => 0x01
  | .gfexp _ => 0x02
  | .gflog _ => 0x03
  | .interp _ => 0x10
  | .split _ _ => 0x20
  | .recover _ => 0x21
  | .encrypt => 0x30
  | .decrypt => 0x31
  | .rscreate => 0x40
  | .rsverify => 0x41
  | .mnenc => 0x50
  | .mndec => 0x51

/-- The `mask` column of 30_encoding.md R62: which bits of a word select the command. -/
def Instr.mask : Instr → Word
  | .gfmul _ _ => 0xFF0000FF
  | .gfexp _ => 0xFFFF00FF
  | .gflog _ => 0xFFFF00FF
  | .interp _ => 0xFFFF00FF
  | .split _ _ => 0xFF0000FF
  | .recover _ => 0xFFFF00FF
  | .encrypt => 0xFFFFFFFF
  | .decrypt => 0xFFFFFFFF
  | .rscreate => 0xFFFFFFFF
  | .rsverify => 0xFFFFFFFF
  | .mnenc => 0xFFFFFFFF
  | .mndec => 0xFFFFFFFF

/-- Field `OPC`, bits 7:0 (30_encoding.md R60). -/
def opcField (c : Word) : Byte := c.extractLsb' 0 8

/-- Field `A`, bits 15:8 (30_encoding.md R60). -/
def aField (c : Word) : Byte := c.extractLsb' 8 8

/-- Field `B`, bits 23:16 (30_encoding.md R60). -/
def bField (c : Word) : Byte := c.extractLsb' 16 8

/-- Field `Z`, bits 31:24 (30_encoding.md R60). -/
def zField (c : Word) : Byte := c.extractLsb' 24 8

/-- Format A: `B` must be 0 (30_encoding.md R60). -/
def formatA (c : Word) (i : Instr) : Except IllegalWord Instr :=
  if bField c = 0 then .ok i else .error .unusedOperandNotZero

/-- Format N: `A` and `B` must be 0 (30_encoding.md R60). -/
def formatN (c : Word) (i : Instr) : Except IllegalWord Instr :=
  if aField c = 0 ∧ bField c = 0 then .ok i else .error .unusedOperandNotZero

/-- The command a word selects (30_encoding.md R62), or why it selects none (R64). -/
def decode (c : Word) : Except IllegalWord Instr :=
  let opc := opcField c
  if zField c ≠ 0 then .error .zNotZero
  else if opc = 0x01 then .ok (.gfmul (aField c) (bField c))
  else if opc = 0x02 then formatA c (.gfexp (aField c))
  else if opc = 0x03 then formatA c (.gflog (aField c))
  else if opc = 0x10 then formatA c (.interp (aField c))
  else if opc = 0x20 then .ok (.split (aField c).toNat (bField c).toNat)
  else if opc = 0x21 then formatA c (.recover (aField c).toNat)
  else if opc = 0x30 then formatN c .encrypt
  else if opc = 0x31 then formatN c .decrypt
  else if opc = 0x40 then formatN c .rscreate
  else if opc = 0x41 then formatN c .rsverify
  else if opc = 0x50 then formatN c .mnenc
  else if opc = 0x51 then formatN c .mndec
  else .error .unassignedOpcode

/-- The word with fields `Z = 0`, `B = b`, `A = a`, `OPC = opc` (30_encoding.md R60). -/
def packWord (opc a b : Byte) : Word := (((0 : Byte) ++ b) ++ (a ++ opc) : BitVec 32)

/-- Operand `A` of a command, 0 where its format uses none (30_encoding.md R62). -/
def Instr.operandA : Instr → Byte
  | .gfmul a _ => a
  | .gfexp i => i
  | .gflog a => a
  | .interp x => x
  | .split t _ => BitVec.ofNat 8 t
  | .recover t => BitVec.ofNat 8 t
  | .encrypt => 0
  | .decrypt => 0
  | .rscreate => 0
  | .rsverify => 0
  | .mnenc => 0
  | .mndec => 0

/-- Operand `B` of a command, 0 where its format uses none (30_encoding.md R62). -/
def Instr.operandB : Instr → Byte
  | .gfmul _ b => b
  | .gfexp _ => 0
  | .gflog _ => 0
  | .interp _ => 0
  | .split _ n => BitVec.ofNat 8 n
  | .recover _ => 0
  | .encrypt => 0
  | .decrypt => 0
  | .rscreate => 0
  | .rsverify => 0
  | .mnenc => 0
  | .mndec => 0

/-- The command word of a well-formed command (30_encoding.md R60, R62). -/
def encode (i : Instr) : Word := packWord i.opcode i.operandA i.operandB

/-- The command the decoder reads from a word numbered as the opcode table numbers its bits: there is one word, and
bit 0 is its least significant bit. -/
def decodeTableWord (nbits w : Nat) : Option Instr :=
  match decode (BitVec.ofNat 32 (w % 2 ^ nbits)) with
  | .ok i => some i
  | .error _ => none

end Sys2Proof
end

