-- ==== Sys2Proof/Machine/Port.lean ====
section
/-!
DEFINITION. The host port (spec 20_memory.md): the address map, reads and writes of cells, refused accesses; and the
fetch of the pending command (30_encoding.md R61).
-/
namespace Sys2Proof.Machine

/-- Element `(a - base) / 4` of an array of `count` cells that starts at offset `base` (20_memory.md R41). -/
def arrayIndex (base count a : Nat) : Option Nat :=
  if base ≤ a ∧ a < base + 4 * count then some ((a - base) / 4) else none

/-- The registers at offsets 0x0000, 0x0004, ... 0x0044, in order (20_memory.md R41). -/
def registerCells : List PortCell :=
  [.cmd, .status, .err, .info, .r0, .olen, .len, .plen, .wlen, .id, .extFlag, .itexp, .gi, .gt, .gc, .mi, .mt, .svalid]

/-- The mapped cell at a byte offset (20_memory.md R41): none for an unmapped or misaligned offset (R42). -/
def cellAt (p : Params) (addr : Offset) : Option PortCell :=
  let a := addr.toNat
  if a % 4 ≠ 0 then none
  else if a < 0x0048 then registerCells[a / 4]?
  else if 0x4000 ≤ a then
    if (a - 0x4000) % 0x400 / 4 < p.maxLen then some (.sdata ((a - 0x4000) / 0x400) ((a - 0x4000) % 0x400 / 4)) else none
  else
    ((arrayIndex 0x0080 16 a).map PortCell.sx).or <|
    ((arrayIndex 0x00C0 16 a).map PortCell.slen).or <|
    ((arrayIndex 0x0400 p.maxLen a).map PortCell.sec).or <|
    ((arrayIndex 0x0800 p.maxPass a).map PortCell.pass).or <|
    ((arrayIndex 0x0C00 p.maxWords a).map PortCell.words).or <|
    ((arrayIndex 0x1000 p.maxLen a).map PortCell.out)

/-- The byte offset of a cell (20_memory.md R41). -/
def PortCell.offset : PortCell → Nat
  | .cmd => 0x0000
  | .status => 0x0004
  | .err => 0x0008
  | .info => 0x000C
  | .r0 => 0x0010
  | .olen => 0x0014
  | .len => 0x0018
  | .plen => 0x001C
  | .wlen => 0x0020
  | .id => 0x0024
  | .extFlag => 0x0028
  | .itexp => 0x002C
  | .gi => 0x0030
  | .gt => 0x0034
  | .gc => 0x0038
  | .mi => 0x003C
  | .mt => 0x0040
  | .svalid => 0x0044
  | .sx s => 0x0080 + 4 * s
  | .slen s => 0x00C0 + 4 * s
  | .sec j => 0x0400 + 4 * j
  | .pass j => 0x0800 + 4 * j
  | .words j => 0x0C00 + 4 * j
  | .out j => 0x1000 + 4 * j
  | .sdata s j => 0x4000 + 0x400 * s + 4 * j

/-- The width of a cell (20_memory.md R41). -/
def PortCell.width : PortCell → Nat
  | .cmd => 32
  | .status => 32
  | .err => 8
  | .info => 32
  | .r0 => 32
  | .olen => 16
  | .len => 16
  | .plen => 16
  | .wlen => 16
  | .id => 15
  | .extFlag => 1
  | .itexp => 4
  | .gi => 4
  | .gt => 5
  | .gc => 5
  | .mi => 4
  | .mt => 5
  | .svalid => 16
  | .sx _ => 8
  | .slen _ => 16
  | .sec _ => 8
  | .pass _ => 8
  | .words _ => 10
  | .out _ => 8
  | .sdata _ _ => 8

/-- Whether the host may write a cell (20_memory.md R41, 10_state.md R23). -/
def PortCell.writable : PortCell → Bool
  | .status => false
  | .err => false
  | .info => false
  | .r0 => false
  | .olen => false
  | .out _ => false
  | .cmd => true
  | .len => true
  | .plen => true
  | .wlen => true
  | .id => true
  | .extFlag => true
  | .itexp => true
  | .gi => true
  | .gt => true
  | .gc => true
  | .mi => true
  | .mt => true
  | .svalid => true
  | .sx _ => true
  | .slen _ => true
  | .sec _ => true
  | .pass _ => true
  | .words _ => true
  | .sdata _ _ => true

/-- The value of a cell, zero-extended (20_memory.md R43). -/
def readCell (c : PortCell) (s : State) : Word :=
  match c with
  | .cmd => s.cmd
  | .status => s.status.word
  | .err => s.err.setWidth 32
  | .info => s.info
  | .r0 => s.r0
  | .olen => s.olen.setWidth 32
  | .len => s.len.setWidth 32
  | .plen => s.plen.setWidth 32
  | .wlen => s.wlen.setWidth 32
  | .id => s.id.setWidth 32
  | .extFlag => s.extFlag.setWidth 32
  | .itexp => s.itexp.setWidth 32
  | .gi => s.gi.setWidth 32
  | .gt => s.gt.setWidth 32
  | .gc => s.gc.setWidth 32
  | .mi => s.mi.setWidth 32
  | .mt => s.mt.setWidth 32
  | .svalid => s.svalid.setWidth 32
  | .sx i => (slotX s i).setWidth 32
  | .slen i => (slotLen s i).setWidth 32
  | .sec j => (Memory.read s.sec j).setWidth 32
  | .pass j => (Memory.read s.pass j).setWidth 32
  | .words j => (Memory.read s.words j).setWidth 32
  | .out j => (Memory.read s.out j).setWidth 32
  | .sdata i j => (Memory.read s.sdata (slotKey i j)).setWidth 32

/-- A write of data that fits to a writable cell while idle (20_memory.md R44); a write to `CMD` issues a command
(30_encoding.md R61). A read-only cell keeps its value. -/
def writeCell (c : PortCell) (v : Word) (s : State) : State :=
  match c with
  | .cmd => issueCommand v s
  | .status => s
  | .err => s
  | .info => s
  | .r0 => s
  | .olen => s
  | .len => { s with len := v.setWidth 16 }
  | .plen => { s with plen := v.setWidth 16 }
  | .wlen => { s with wlen := v.setWidth 16 }
  | .id => { s with id := v.setWidth 15 }
  | .extFlag => { s with extFlag := v.setWidth 1 }
  | .itexp => { s with itexp := v.setWidth 4 }
  | .gi => { s with gi := v.setWidth 4 }
  | .gt => { s with gt := v.setWidth 5 }
  | .gc => { s with gc := v.setWidth 5 }
  | .mi => { s with mi := v.setWidth 4 }
  | .mt => { s with mt := v.setWidth 5 }
  | .svalid => { s with svalid := v.setWidth 16 }
  | .sx i => { s with sx := Memory.write s.sx i (v.setWidth 8) }
  | .slen i => { s with slen := Memory.write s.slen i (v.setWidth 16) }
  | .sec j => { s with sec := Memory.write s.sec j (v.setWidth 8) }
  | .pass j => { s with pass := Memory.write s.pass j (v.setWidth 8) }
  | .words j => { s with words := Memory.write s.words j (v.setWidth 10) }
  | .out _ => s
  | .sdata i j => { s with sdata := Memory.write s.sdata (slotKey i j) (v.setWidth 8) }

/-- The one access size, in bytes (20_memory.md R42). -/
def accessSize : Nat := 4

/-- The mapped cell an access of `size` bytes reaches, if the port accepts the access (20_memory.md R42, R46). -/
def reachedCell (p : Params) (addr : Offset) (size : Nat) : Option PortCell :=
  if size = accessSize then cellAt p addr else none

/-- A refused access while busy: `HAZ` becomes 1 (20_memory.md R45). -/
def refuseBusy (s : State) : State := { s with status := s.status.withHaz }

/-- A refused access while idle: `BADACC` becomes 1 (20_memory.md R46). -/
def refuseIdle (s : State) : State := { s with status := s.status.withBadacc }

/-- The answer of the port to a read (log entry 3). -/
def answerRead (v : Word) (s : State) : State := { s with rdata := v }

/-- One read of the host (20_memory.md R43 to R46). A refused read answers 0. While busy only the 32-bit read of
`STATUS` is accepted (log entry 7). -/
def hostRead (addr : Offset) (size : Nat) (s : State) : State :=
  if s.status.busy then
    if reachedCell s.params addr size = some .status then answerRead s.status.word s
    else answerRead 0 (refuseBusy s)
  else
    match reachedCell s.params addr size with
    | some c => answerRead (readCell c s) s
    | none => answerRead 0 (refuseIdle s)

/-- One write of the host (20_memory.md R43 to R46). A refused write is dropped. -/
def hostWrite (addr : Offset) (size : Nat) (v : Word) (s : State) : State :=
  if s.status.busy then refuseBusy s
  else
    match reachedCell s.params addr size with
    | some c => if c.writable && decide (v.toNat < 2 ^ c.width) then writeCell c v s else refuseIdle s
    | none => refuseIdle s

/-- One access of the host. -/
def hostAccess (a : Access) (s : State) : State :=
  match a with
  | .read addr size => hostRead addr size s
  | .write addr size v => hostWrite addr size v s

/-- The pending command, decoded (30_encoding.md R61, 60_exceptions.md R213). -/
def fetchCommand (s : State) : Except IllegalWord Instr := decode s.cmd

/-- Whose turn is next: the head of `turns`, and the block's where no turn waits (log entry 2). -/
def nextTurn (s : State) : Turn :=
  match s.turns with
  | [] => .block
  | t :: _ => t

/-- The state with the next turn taken off `turns`. -/
def dropTurn (s : State) : State := { s with turns := s.turns.tail }

/-- A command placed as if the host had just written it to `CMD` while idle, and the block's turn placed next. -/
def placeCommand (c : Word) (s : State) : State := { issueCommand c s with turns := .block :: s.turns }

end Sys2Proof.Machine
end

