-- ==== Sys2Proof/Machine/Step.lean ====
section
/-!
DEFINITION. One step of the machine: the next agent's turn (spec 60_exceptions.md R213).
-/
namespace Sys2Proof.Machine

/-- The block's turn (60_exceptions.md R213): with a command pending, *Complete*; else the block is idle and nothing
changes (70_reset_and_hazards.md R243). -/
def blockStep (s : State) : Host.Outcome State Fault Refusal :=
  if s.status.busy then
    match fetchCommand s with
    | .ok i => exec i s
    | .error _ => .next (completeIllegal s)
  else .next s

/-- One step: the turn at the head of `turns` is taken off and taken. -/
def step (s : State) : Host.Outcome State Fault Refusal :=
  match nextTurn s with
  | .host a => .next (hostAccess a (dropTurn s))
  | .block => blockStep (dropTurn s)
  | .reset => .next (resetBlock (dropTurn s))

/-- The state with a command word placed where the next step takes its command from: `CMD` issued (30_encoding.md R61)
and the block's turn next (log entry 8). -/
def State.withFetchWord (s : State) (nbits w : Nat) : State := placeCommand (BitVec.ofNat 32 (w % 2 ^ nbits)) s

end Sys2Proof.Machine
end

