-- ==== Sys2Proof/Machine/HostFlow.lean ====
section
/-!
DEFINITION. The host's side (spec 48_host_flows.md): the script statements of 30_encoding.md R66, each made of port
accesses and the block's own step, and the split and combine flows over them. Nothing here adds to the block: `step`
uses none of it. The flows follow the one synchronisation rule (70_reset_and_hazards.md R246).
-/
namespace Sys2Proof.Machine

/-- How a flow of the host ends early (48_host_flows.md R192 to R198). -/
inductive HostError where
  /-- A command completed with an error: what the host reads in `ERR` and `INFO`. -/
  | command (code : Byte) (info : Word)
  /-- The configuration breaks a bound of 48_host_flows.md R192. -/
  | badConfiguration
  /-- `InconsistentHeader` (48_host_flows.md R196). -/
  | inconsistentHeader
  /-- `InsufficientMemberShares` (48_host_flows.md R197), with the missing count and the first three words of a mnemonic
  of the group. -/
  | insufficientMemberShares (missing : Nat) (lead : List MnWord)
  /-- `InsufficientGroups` (48_host_flows.md R198). -/
  | insufficientGroups
  /-- The block's step gave no next state; it always gives one, so nothing raises this. -/
  | blockStopped
deriving DecidableEq, Repr

/-! ### Script statements (30_encoding.md R66) -/

/-- An offset inside the window that no cell has, the first above `SVALID` (20_memory.md R41). -/
def unmappedOffset : Offset := 0x0048

/-- `offset(cell)` of a script statement (30_encoding.md R66). DESIGN CHOICE (log entry 14): R41 gives offsets only to
elements below their capacity, and says that the others are unmapped; a statement about one of those is an access to an
unmapped offset, which the port refuses (20_memory.md R45, R46), and so reaches no cell. -/
def cellOffset (p : Params) (c : PortCell) : Offset :=
  if cellAt p (BitVec.ofNat 15 c.offset) = some c then BitVec.ofNat 15 c.offset else unmappedOffset

/-- `SET cell = v`. An element at or beyond its capacity is refused (DESIGN CHOICE, log entry 14). -/
def setCell (c : PortCell) (v : Word) (s : State) : State :=
  hostAccess (.write (cellOffset s.params c) accessSize v) s

/-- `GET cell`; the value read is in `rdata`. An element at or beyond its capacity is refused and reads 0 (DESIGN CHOICE,
log entry 14). -/
def getCell (c : PortCell) (s : State) : State :=
  hostAccess (.read (cellOffset s.params c) accessSize) s

/-- `SET buf[base..] = v0 v1 ...`: one write per element, ascending. -/
def setCells (cell : Nat → PortCell) (base : Nat) (vs : List Word) (s : State) : State :=
  match vs with
  | [] => s
  | v :: rest => setCells cell (base + 1) rest (setCell (cell base) v s)

/-- `GET` of the `n` elements from `base` on, ascending: the values read, and the state after. -/
def getCells (cell : Nat → PortCell) (base : Nat) : Nat → State → List Word × State
  | 0, s => ([], s)
  | n + 1, s =>
    let t := getCell (cell base) s
    let r := getCells cell (base + 1) n t
    (t.rdata :: r.1, r.2)

/-- `COPY dst[i..i+n) = src[i..i+n)`: for each element in turn a `GET` and a `SET`. -/
def copyCells (dst src : Nat → PortCell) (base : Nat) : Nat → State → State
  | 0, s => s
  | n + 1, s =>
    let t := getCell (src base) s
    copyCells dst src (base + 1) n (setCell (dst base) t.rdata t)

/-- `RUN <command>`: the write to `CMD`, the block's step, one read of `STATUS`; and the check the flows make after
each `RUN` (48_host_flows.md R193): with `ERROR` set, the host reads `ERR` and `INFO` and the flow ends. DESIGN CHOICE
(log entry 9): R66 repeats the read of `STATUS` until `DONE`; here the block's step comes right after the write, so the
first read shows `DONE`. -/
def runCommand (i : Instr) (s : State) : Except HostError State :=
  match blockStep (setCell .cmd (encode i) s) with
  | .next t =>
    let u := getCell .status t
    if u.rdata.getLsbD 2 then
      let e := getCell .err u
      let f := getCell .info e
      .error (.command (e.rdata.setWidth 8) f.rdata)
    else .ok u
  | .fault _ => .error .blockStopped
  | .refused _ => .error .blockStopped

/-- Bytes as port data (20_memory.md R43). -/
def byteWords (bs : List Byte) : List Word := bs.map (BitVec.setWidth 32)

/-- Port data of byte cells as bytes. -/
def wordBytes (ws : List Word) : List Byte := ws.map (BitVec.setWidth 8)

/-- A number as port data. DESIGN CHOICE (log entry 14): a number that has no 32-bit value becomes the greatest one, which
the port refuses for every cell narrower than 32 bits (20_memory.md R43). -/
def portNumber (n : Nat) : Word := BitVec.ofNat 32 (min n 0xFFFFFFFF)

/-! ### Passphrases (48_host_flows.md R190) -/

/-- The UTF-8 bytes of one character. PRESUMED (log entry 15): R190 names the encoding and does not print it; these are
its one to four bytes, six bits in each byte after the first. -/
def utf8Char (c : Char) : List Byte :=
  let v := c.val.toNat
  if v < 0x80 then [BitVec.ofNat 8 v]
  else if v < 0x800 then [BitVec.ofNat 8 (0xC0 + v / 2 ^ 6), BitVec.ofNat 8 (0x80 + v % 2 ^ 6)]
  else if v < 0x10000 then
    [BitVec.ofNat 8 (0xE0 + v / 2 ^ 12), BitVec.ofNat 8 (0x80 + v / 2 ^ 6 % 2 ^ 6), BitVec.ofNat 8 (0x80 + v % 2 ^ 6)]
  else
    [BitVec.ofNat 8 (0xF0 + v / 2 ^ 18), BitVec.ofNat 8 (0x80 + v / 2 ^ 12 % 2 ^ 6),
      BitVec.ofNat 8 (0x80 + v / 2 ^ 6 % 2 ^ 6), BitVec.ofNat 8 (0x80 + v % 2 ^ 6)]

/-- The bytes of a passphrase, a sequence of characters (48_host_flows.md R190): UTF-8, not normalised; for printable ASCII
the character codes, one byte each. -/
def passphraseBytes (chars : List Char) : List Byte := chars.flatMap utf8Char

/-! ### Split (48_host_flows.md R191 to R194) -/

/-- What the host is asked to split. The identifier is the host's to choose (48_host_flows.md R191). -/
structure SplitRequest where
  /-- The master secret. -/
  secret : List Byte
  /-- The passphrase, its characters (48_host_flows.md R190). -/
  pass : List Char
  /-- The identifier. -/
  id : BitVec 15
  /-- The extendable flag. -/
  extFlag : BitVec 1
  /-- The iteration exponent. -/
  itexp : BitVec 4
  /-- The group threshold. -/
  groupThreshold : Nat
  /-- For each group its member threshold and member count. -/
  groups : List (Nat × Nat)
deriving DecidableEq, Repr

/-- The configuration checks before a split (48_host_flows.md R192). -/
def SplitRequest.ok (q : SplitRequest) : Bool :=
  decide (q.secret.length % 2 = 0) && decide (Config.minSecret ≤ q.secret.length) &&
    decide (1 ≤ q.groups.length) && decide (q.groups.length ≤ Config.maxShareCount) &&
    decide (1 ≤ q.groupThreshold) && decide (q.groupThreshold ≤ q.groups.length) &&
    q.groups.all fun g => decide (1 ≤ g.1) && decide (g.1 ≤ g.2) && decide (g.2 ≤ Config.maxShareCount)

/-- `xs[g] = SDATA[g][0..n)` for `g` in `0 .. count - 1`: the host saves the shares (48_host_flows.md R193). -/
def saveShares (n : Nat) : Nat → State → List (List Byte) × State
  | 0, s => ([], s)
  | count + 1, s =>
    let r := saveShares n count s
    let g := getCells (PortCell.sdata count) 0 n r.2
    (r.1 ++ [wordBytes g.1], g.2)

/-- The member splits of the groups, in group order (48_host_flows.md R193). -/
def splitGroups (groups : List (Nat × Nat)) (groupShares : List (List Byte)) (s : State) :
    Except HostError (List (List (List Byte)) × State) :=
  match groups, groupShares with
  | g :: gs, v :: vs => do
    let t ← runCommand (.split g.1 g.2) (setCells PortCell.sec 0 (byteWords v) s)
    let saved := saveShares v.length g.2 t
    let r ← splitGroups gs vs saved.2
    .ok (saved.1 :: r.1, r.2)
  | _, _ => .ok ([], s)

/-- `MNENC` of the member shares of one group, `MI = m` for the `m`-th (48_host_flows.md R193). -/
def encodeMembers (m : Nat) (shares : List (List Byte)) (s : State) : Except HostError (List (List MnWord) × State) :=
  match shares with
  | [] => .ok ([], s)
  | v :: vs => do
    let t ← runCommand .mnenc (setCell .mi (portNumber m) (setCells PortCell.sec 0 (byteWords v) s))
    let k := getCell .wlen t
    let ws := getCells PortCell.words 0 k.rdata.toNat k
    let r ← encodeMembers (m + 1) vs ws.2
    .ok (ws.1.map (BitVec.setWidth 10) :: r.1, r.2)

/-- `MNENC` of every leaf, depth-first: all members of group 0, then group 1, ... (48_host_flows.md R193). -/
def encodeGroups (q : SplitRequest) (g : Nat) (groups : List (Nat × Nat)) (members : List (List (List Byte)))
    (s : State) : Except HostError (List (List MnWord) × State) :=
  match groups, members with
  | c :: cs, ms :: mss => do
    let t := setCell .mt (portNumber c.1) (setCell .gc (portNumber q.groups.length)
      (setCell .gt (portNumber q.groupThreshold) (setCell .gi (portNumber g) s)))
    let r ← encodeMembers 0 ms t
    let r' ← encodeGroups q (g + 1) cs mss r.2
    .ok (r.1 ++ r'.1, r'.2)
  | _, _ => .ok ([], s)

/-- The split flow (48_host_flows.md R193): the mnemonics of all leaves, and the state after. -/
def splitFlow (q : SplitRequest) (s : State) : Except HostError (List (List MnWord) × State) :=
  if q.ok then do
    let n := q.secret.length
    let s1 := setCells PortCell.sec 0 (byteWords q.secret) (setCell .len (portNumber n) s)
    let pw := passphraseBytes q.pass
    let s2 := setCells PortCell.pass 0 (byteWords pw) (setCell .plen (portNumber pw.length) s1)
    let s3 := setCell .itexp (q.itexp.setWidth 32) (setCell .extFlag (q.extFlag.setWidth 32)
      (setCell .id (q.id.setWidth 32) s2))
    let s4 ← runCommand .encrypt s3
    let s5 := copyCells PortCell.sec PortCell.out 0 n s4
    let s6 ← runCommand (.split q.groupThreshold q.groups.length) s5
    let saved := saveShares n q.groups.length s6
    let members ← splitGroups q.groups saved.1 saved.2
    encodeGroups q 0 q.groups members.1 members.2
  else .error .badConfiguration

/-! ### Combine (48_host_flows.md R195 to R198) -/

/-- A DecodedShare, with the mnemonic it came from (48_host_flows.md R195). -/
structure DecodedShare where
  /-- The eight header fields. -/
  header : Header
  /-- The share bytes. -/
  value : List Byte
  /-- The mnemonic. -/
  mnemonic : List MnWord
deriving DecidableEq, Repr

/-- Step 1: `MNDEC` of each mnemonic (48_host_flows.md R195). -/
def decodeAll (mnemonics : List (List MnWord)) (s : State) : Except HostError (List DecodedShare × State) :=
  match mnemonics with
  | [] => .ok ([], s)
  | w :: rest => do
    let t ← runCommand .mndec (setCell .wlen (portNumber w.length)
      (setCells PortCell.words 0 (w.map (BitVec.setWidth 32)) s))
    let hid := getCell .id t
    let hext := getCell .extFlag hid
    let hitexp := getCell .itexp hext
    let hgi := getCell .gi hitexp
    let hgt := getCell .gt hgi
    let hgc := getCell .gc hgt
    let hmi := getCell .mi hgc
    let hmt := getCell .mt hmi
    let k := getCell .olen hmt
    let v := getCells PortCell.out 0 k.rdata.toNat k
    let h : Header :=
      { id := hid.rdata.setWidth 15, extFlag := hext.rdata.setWidth 1, itexp := hitexp.rdata.setWidth 4,
        gi := hgi.rdata.setWidth 4, gt := hgt.rdata.setWidth 5, gc := hgc.rdata.setWidth 5,
        mi := hmi.rdata.setWidth 4, mt := hmt.rdata.setWidth 5 }
    let r ← decodeAll rest v.2
    .ok (⟨h, wordBytes v.1, w⟩ :: r.1, r.2)

/-- Whether two shares agree in the fields a combine requires to be identical (48_host_flows.md R196). -/
def sameHeader (a b : DecodedShare) : Bool :=
  a.header.id == b.header.id && a.header.extFlag == b.header.extFlag && a.header.itexp == b.header.itexp &&
    a.header.gt == b.header.gt && a.header.gc == b.header.gc

/-- Step 2: all shares agree with the first, and the shares of one group in the member threshold (48_host_flows.md R196). -/
def headersConsistent (ds : List DecodedShare) : Bool :=
  match ds with
  | [] => true
  | d :: rest =>
    rest.all (sameHeader d) &&
      ds.all fun a => ds.all fun b => a.header.gi != b.header.gi || a.header.mt == b.header.mt

/-- The shares of a list with different member indices: of those with one index the first counts (48_host_flows.md R197,
log entry 9). -/
def distinctMembers (ds : List DecodedShare) : List DecodedShare :=
  ds.foldl (fun acc d => if acc.any (fun a => a.header.mi == d.header.mi) then acc else acc ++ [d]) []

/-- The group indices of a list of shares, each once, in order of first appearance (log entry 9). -/
def groupIndices (ds : List DecodedShare) : List (BitVec 4) :=
  ds.foldl (fun acc d => if acc.contains d.header.gi then acc else acc ++ [d.header.gi]) []

/-- Shares loaded into slots `i`, `i + 1`, ... (48_host_flows.md R197, R198). -/
def loadSlots (i : Nat) (shares : List (BitVec 4 × List Byte)) (s : State) : State :=
  match shares with
  | [] => s
  | (x, v) :: rest =>
    loadSlots (i + 1) rest
      (setCells (PortCell.sdata i) 0 (byteWords v)
        (setCell (.slen i) (portNumber v.length) (setCell (.sx i) (x.setWidth 32) s)))

/-- `RECOVER t` of a list of shares, and the bytes in `OUT` (48_host_flows.md R197, R198). -/
def recoverShares (t : Nat) (shares : List (BitVec 4 × List Byte)) (s : State) : Except HostError (List Byte × State) := do
  let u ← runCommand (.recover t) (setCell .svalid (portNumber (2 ^ shares.length - 1)) (loadSlots 0 shares s))
  let k := getCell .olen u
  let v := getCells PortCell.out 0 k.rdata.toNat k
  .ok (wordBytes v.1, v.2)

/-- Step 3: the groups of a list, each with exactly its member threshold of distinct members, recovered
(48_host_flows.md R197). DESIGN CHOICE (log entry 9): R197 leaves open whether all groups are verified before any is
recovered; here a group is verified and recovered before the next is looked at, so an error of an earlier group's
`RECOVER` is reported before an `InsufficientMemberShares` of a later group. -/
def recoverGroups (ds : List DecodedShare) (gis : List (BitVec 4)) (s : State) :
    Except HostError (List (BitVec 4 × List Byte) × State) :=
  match gis with
  | [] => .ok ([], s)
  | g :: rest =>
    match distinctMembers (ds.filter fun d => d.header.gi == g) with
    | [] => recoverGroups ds rest s
    | d :: more => do
      let members := d :: more
      let need := d.header.mt.toNat
      if members.length = need then
        let r ← recoverShares need (members.map fun m => (m.header.mi, m.value)) s
        let r' ← recoverGroups ds rest r.2
        .ok ((g, r.1) :: r'.1, r'.2)
      else .error (.insufficientMemberShares (need - members.length) (d.mnemonic.take 3))

/-- Steps 1 to 4, the combine flow (48_host_flows.md R195 to R198): the master secret, and the state after. With a group
threshold of 1 the host presents one group, the first (log entry 9). The passphrase is any sequence of characters, empty by
default (R190, R198). -/
def combineFlow (mnemonics : List (List MnWord)) (pass : List Char) (s : State) : Except HostError (List Byte × State) := do
  let decoded ← decodeAll mnemonics s
  match decoded.1 with
  | [] => .error .insufficientGroups
  | d :: rest =>
    let ds := d :: rest
    if headersConsistent ds then
      let gs ← recoverGroups ds (groupIndices ds) decoded.2
      let need := d.header.gt.toNat
      if gs.1.length < need then .error .insufficientGroups
      else
        let r ← recoverShares need (if need = 1 then gs.1.take 1 else gs.1) gs.2
        let n := r.1.length
        let s1 := setCell .len (portNumber n) (copyCells PortCell.sec PortCell.out 0 n r.2)
        let s2 := setCell .itexp (d.header.itexp.setWidth 32) (setCell .extFlag (d.header.extFlag.setWidth 32)
          (setCell .id (d.header.id.setWidth 32) s1))
        let pw := passphraseBytes pass
        let s3 := setCells PortCell.pass 0 (byteWords pw) (setCell .plen (portNumber pw.length) s2)
        let s4 ← runCommand .decrypt s3
        let v := getCells PortCell.out 0 n s4
        .ok (wordBytes v.1, v.2)
    else .error .inconsistentHeader

end Sys2Proof.Machine
end

