-- ==== Sys2Proof/Safety.lean ====
section
/-!
DEFINITION. What the claims speak of: the invariant of a run, the conditions the spec's rules name, and the reference
definitions the rules give beside the block's own way of computing (spec 00_scope.md R7, 20_memory.md R41, 40_gf256.md
R80 and R82, 41_interp.md R100, 44_rs1024.md R141, 45_mnemonic.md R152, 60_exceptions.md R210 and R214).
-/
namespace Sys2Proof

open Sys2Proof.Machine

/-! ### The invariant -/

/-- Every array of cells is in its canonical form and within its capacity (10_state.md R24, R26); `OUT` is 0 from `OLEN`
on (R26, 60_exceptions.md R212), and `OLEN` is within the capacity. -/
abbrev ArraysOk (s : State) : Prop :=
  Memory.wf Config.maxShareCount s.sx ∧ Memory.wf Config.maxShareCount s.slen ∧
    Memory.wf (256 * Config.maxShareCount) s.sdata ∧ (∀ c ∈ s.sdata, c.1 % 256 < s.params.maxLen) ∧
    Memory.wf s.params.maxLen s.sec ∧ Memory.wf s.params.maxPass s.pass ∧ Memory.wf s.params.maxWords s.words ∧
    Memory.wf s.olen.toNat s.out ∧ s.olen.toNat ≤ s.params.maxLen

/-- `BUSY` and `DONE` are never both 1, and `ERROR` stands only with `DONE` (10_state.md R17, 30_encoding.md R61). -/
abbrev StatusOk (s : State) : Prop :=
  ¬(s.status.busy = true ∧ s.status.done = true) ∧ (s.status.error = true → s.status.done = true)

/-- The errors the block raises (60_exceptions.md R210, less the four of R216). -/
def blockErrors : List CmdError :=
  [.invalidThreshold, .tooManyShares, .inconsistentShareLength, .digestMismatch, .mnemonicTooShort, .invalidChecksum,
   .invalidPadding, .invalidPassphraseCharset, .groupCountInconsistent, .illegalCommand, .badLength, .badField,
   .badShareCount, .duplicateIndex]

/-- `ERR` and `INFO` are 0 without `ERROR`, and with it `ERR` is the code of an error the block raises (10_state.md R18,
R19, 60_exceptions.md R210, R216). -/
abbrev ReportOk (s : State) : Prop :=
  (s.status.error = false → s.err = 0 ∧ s.info = 0) ∧
    (s.status.error = true → ∃ e ∈ blockErrors, s.err = e.code)

/-- The invariant of the machine. -/
abbrev Inv (s : State) : Prop :=
  Config.ParamsOk s.params ∧ ArraysOk s ∧ StatusOk s ∧ ReportOk s

/-! ### How a command ends -/

/-- `STATUS` after a command without error: `BUSY <- 0; DONE <- 1` (60_exceptions.md R212). -/
abbrev doneStatus (s : State) : Status := { s.status with busy := false, done := true }

/-- The state after `raise E(info)` (60_exceptions.md R214). -/
abbrev errorReport (e : CmdError) (info : Nat) (s : State) : State :=
  { s with
    r0 := 0, olen := 0, out := [], err := e.code, info := BitVec.ofNat 32 info,
    status := { s.status with busy := false, done := true, error := true } }

/-- The state after a command that writes `bs` to `OUT` and nothing else (60_exceptions.md R212). -/
abbrev byteResult (bs : List Byte) (s : State) : State :=
  { s with r0 := 0, olen := BitVec.ofNat 16 bs.length, out := Memory.ofList 0 bs, status := doneStatus s }

/-- The state after a command that writes `v` to `R0` and nothing else (60_exceptions.md R212). -/
abbrev scalarResult (v : Word) (s : State) : State := { s with r0 := v, olen := 0, out := [], status := doneStatus s }

/-- The outcome with its next state changed by `f`. -/
def onNext (f : State → State) : Host.Outcome State Fault Refusal → Host.Outcome State Fault Refusal
  | .next s => .next (f s)
  | .fault r => .fault r
  | .refused r => .refused r

/-- The errors each command may raise (60_exceptions.md R210 "Raised by", R215). -/
def Instr.mayRaise : Instr → List CmdError
  | .gfmul _ _ => []
  | .gfexp _ => []
  | .gflog _ => []
  | .interp _ => [.badShareCount, .badLength, .inconsistentShareLength, .duplicateIndex]
  | .split _ _ => [.invalidThreshold, .tooManyShares, .badLength]
  | .recover _ =>
    [.invalidThreshold, .badShareCount, .badLength, .inconsistentShareLength, .duplicateIndex, .digestMismatch]
  | .encrypt => [.badLength, .invalidPassphraseCharset]
  | .decrypt => [.badLength]
  | .rscreate => [.badLength]
  | .rsverify => [.badLength]
  | .mnenc => [.badLength, .badField, .groupCountInconsistent]
  | .mndec =>
    [.badLength, .mnemonicTooShort, .invalidChecksum, .invalidPadding, .groupCountInconsistent]

/-! ### The window -/

/-- Whether a cell exists at all: its slot and element numbers are in range (20_memory.md R41). -/
abbrev Machine.PortCell.Mapped (p : Params) : PortCell → Prop
  | .sx s => s < 16
  | .slen s => s < 16
  | .sec j => j < p.maxLen
  | .pass j => j < p.maxPass
  | .words j => j < p.maxWords
  | .out j => j < p.maxLen
  | .sdata s j => s < 16 ∧ j < p.maxLen
  | .cmd => True
  | .status => True
  | .err => True
  | .info => True
  | .r0 => True
  | .olen => True
  | .len => True
  | .plen => True
  | .wlen => True
  | .id => True
  | .extFlag => True
  | .itexp => True
  | .gi => True
  | .gt => True
  | .gc => True
  | .mi => True
  | .mt => True
  | .svalid => True

/-- Offset, size and, for a write, data of an access. -/
def Machine.Access.addr : Access → Offset
  | .read a _ => a
  | .write a _ _ => a

/-- The size of an access, in bytes. -/
def Machine.Access.bytes : Access → Nat
  | .read _ n => n
  | .write _ n _ => n

/-- The port's answer after a refused access: 0 for a read; a write answers nothing (20_memory.md R45, R46). -/
def refusedAnswer (a : Access) (s : State) : Word :=
  match a with
  | .read _ _ => 0
  | .write _ _ _ => s.rdata

/-- The accesses 20_memory.md R46 refuses while idle: not of 32 bits, misaligned, of no mapped cell's offset, or a write to
a read-only cell or of data with a 1 above the cell's width. -/
abbrev Machine.Access.RefusedIdle (p : Params) (a : Access) : Prop :=
  a.bytes ≠ 4 ∨ a.addr.toNat % 4 ≠ 0 ∨ (∀ c : PortCell, c.Mapped p → c.offset ≠ a.addr.toNat) ∨
    ∃ (c : PortCell) (v : Word), a = .write a.addr a.bytes v ∧ c.Mapped p ∧ c.offset = a.addr.toNat ∧
      (c.writable = false ∨ 2 ^ c.width ≤ v.toNat)

/-! ### The share table -/

/-- Slot `i` exists and is valid (10_state.md R24). -/
abbrev SlotValid (s : State) (i : Nat) : Prop := i < 16 ∧ s.svalid.getLsbD i = true

/-- The length of slot `i` is one `CheckShares` accepts (41_interp.md R101). -/
abbrev SlotLenOk (s : State) (i : Nat) : Prop := (slotLen s i).toNat ≠ 0 ∧ (slotLen s i).toNat ≤ s.params.maxLen

/-- The share table passes `CheckShares` with the common length `n` (41_interp.md R101). -/
abbrev TableOk (s : State) (n : Nat) : Prop :=
  (∃ i, i < 16 ∧ s.svalid.getLsbD i = true) ∧
    (∀ i, i < 16 → s.svalid.getLsbD i = true → (slotLen s i).toNat = n) ∧ n ≠ 0 ∧ n ≤ s.params.maxLen ∧
    ∀ i, i < 16 → ∀ j, j < 16 → s.svalid.getLsbD i = true → s.svalid.getLsbD j = true →
      slotX s i = slotX s j → i = j

/-- The share list `P` of a table with the common length `n` (10_state.md R24). -/
abbrev shareList (s : State) (n : Nat) : List (Byte × List Byte) :=
  ((List.range 16).filter fun i => s.svalid.getLsbD i).map fun i => (slotX s i, slotData s i n)

/-- A sequence followed by zeros up to a length. -/
def zeroPadded (bs : List Byte) (len : Nat) : List Byte := bs ++ List.replicate (len - bs.length) 0

/-- The share table of `t` is the one a split into `n` shares of length `len` leaves (42_shamir.md R115). -/
abbrev ShareTableIs (t : State) (n len : Nat) (share : Nat → List Byte) : Prop :=
  t.svalid = BitVec.ofNat 16 (2 ^ n - 1) ∧
    ∀ i, i < 16 →
      slotX t i = (if i < n then BitVec.ofNat 8 i else 0) ∧
      (slotLen t i).toNat = (if i < n then len else 0) ∧
      slotData t i t.params.maxLen = zeroPadded (if i < n then share i else []) t.params.maxLen

/-- The draw `name` of `n` bytes of the next command that takes draws (10_state.md R29). -/
abbrev drawOf (s : State) (name : DrawName) (n : Nat) : List Byte :=
  (List.range n).map fun j => Config.drawByte s.drawSerial name j

/-- The interpolation basis of a `SPLIT` with threshold `t ≥ 2` (42_shamir.md R111, R113, R115). -/
abbrev splitBasis (s : State) (t : Nat) : List (Byte × List Byte) :=
  ((List.range (t - 2)).map fun i => (BitVec.ofNat 8 i, drawOf s (.share i) s.len.toNat)) ++
    [(254, shareDigest (drawOf s .pad (s.len.toNat - 4)) (secretBytes s) ++ drawOf s .pad (s.len.toNat - 4)),
     (255, secretBytes s)]

/-! ### Lengths and fields -/

/-- `LEN` is the length of a secret: even, at least 16, within the capacity (43_feistel.md R132, 45_mnemonic.md R155). -/
abbrev SecretLenOk (s : State) : Prop :=
  s.len.toNat % 2 = 0 ∧ 16 ≤ s.len.toNat ∧ s.len.toNat ≤ s.params.maxLen

/-- A printable ASCII byte (43_feistel.md R132). -/
abbrev Printable (b : Byte) : Prop := 0x20 ≤ b.toNat ∧ b.toNat ≤ 0x7E

/-- A threshold or count in 1..16 (45_mnemonic.md R155). -/
abbrev FieldOk (f : BitVec 5) : Prop := 1 ≤ f.toNat ∧ f.toNat ≤ 16

/-- The thresholds and counts of a header are in range (45_mnemonic.md R155). -/
abbrev HeaderOk (h : Header) : Prop := FieldOk h.gt ∧ FieldOk h.gc ∧ FieldOk h.mt

/-! ### Reference definitions -/

/-- One turn of the loop that builds `EXP` (40_gf256.md R80): `p <- (p << 1) xor p`, reduced by 0x11B. -/
def expLoop (p : Nat) : Nat :=
  let q := (p <<< 1) ^^^ p
  if q.testBit 8 then q ^^^ 0x11B else q

/-- The value of `p` after `i` turns from 1 (40_gf256.md R80). -/
def expPower : Nat → Nat
  | 0 => 1
  | i + 1 => expLoop (expPower i)

/-- Multiplication by the polynomial `x`, reduced by 0x11B (40_gf256.md R82). -/
def timesX (a : Byte) : Byte := if a.msb then (a <<< 1) ^^^ 0x1B else a <<< 1

/-- Multiplication by `x ^ i`. -/
def timesXPow (a : Byte) : Nat → Byte
  | 0 => a
  | i + 1 => timesX (timesXPow a i)

/-- The bitwise product in GF(2)[x] modulo 0x11B: shift and exclusive or (40_gf256.md R82). -/
def bitwiseProduct (a b : Byte) : Byte :=
  (List.range 8).foldl (fun acc i => if b.getLsbD i then acc ^^^ timesXPow a i else acc) 0

/-- The inverse of `a ≠ 0` (40_gf256.md R87). -/
def gfInv (a : Byte) : Byte := gfExp ((255 - gfLog a) % 255)

/-- The quotient `a / b` for `a ≠ 0`, `b ≠ 0` (40_gf256.md R87). -/
def gfQuot (a b : Byte) : Byte := gfExp (((gfLog a : Int) - gfLog b) % 255).toNat

/-- The Lagrange basis value of the point `xi` at `x`, in field arithmetic: the product over the other points of
`(x xor x_j) / (x_i xor x_j)` (41_interp.md R100). -/
def lagrangeBasis (P : List (Byte × List Byte)) (x xi : Byte) : Byte :=
  (P.filter fun p => p.1 != xi).foldl (fun acc p => gfMul acc (gfQuot (x ^^^ p.1) (xi ^^^ p.1))) 1

/-- The coordinates of a share list are pairwise distinct, and its values all have length `n` (41_interp.md R100). -/
abbrev SharesOk (P : List (Byte × List Byte)) (n : Nat) : Prop :=
  (P.map Prod.fst).Nodup ∧ ∀ p ∈ P, p.2.length = n

/-- One turn of the loop of `Polymod`, on integers (44_rs1024.md R141). -/
def polymodNatStep (chk v : Nat) : Nat :=
  let b := chk >>> 20
  let c := ((chk &&& 0xFFFFF) <<< 10) ^^^ v
  (List.range 10).foldl (fun c i => if b.testBit i then c ^^^ (rsGenerator.getD i 0).toNat else c) c

/-- `Polymod(values)` on integers (44_rs1024.md R141). -/
def polymodNat (values : List Nat) : Nat := values.foldl polymodNatStep 1

/-- The 40-bit header string of 45_mnemonic.md R152. -/
def headerInteger (h : Header) : Nat :=
  h.id.toNat * 2 ^ 25 + h.extFlag.toNat * 2 ^ 24 + h.itexp.toNat * 2 ^ 20 + h.gi.toNat * 2 ^ 16 +
    (h.gt.toNat - 1) * 2 ^ 12 + (h.gc.toNat - 1) * 2 ^ 8 + h.mi.toNat * 2 ^ 4 + (h.mt.toNat - 1)

end Sys2Proof
end

