-- ==== Sys2Proof/Certificates/Slice0/Obligations.lean ====
section
/-!
DEFINITION. What is claimed of the GF256 CORE, rule by rule of the spec. `errorReport e info s`, `scalarResult v s` and
`byteResult bs s` of Safety.lean are `s` with exactly the cells 60_exceptions.md R212 and R214 name changed, so an
equation `exec i s = .next (…)` gives an instruction's result and its whole frame. `State.params`, `turns`, `rdata` and
`drawSerial` are the model's own fields (log entries 1 to 4).
-/
open Sys2Proof Sys2Proof.Machine

/-! ### The command word -/

/-- 30_encoding.md R60, R62, R64 on words written out from the encoding: each command once, and words of each illegal kind. -/
def Obligations.DecodeReadsSampleWords : Prop :=
  decode 0x00835701 = .ok (.gfmul 0x57 0x83) ∧ decode 0x00001902 = .ok (.gfexp 25) ∧
    decode 0x00000203 = .ok (.gflog 2) ∧ decode 0x0000C810 = .ok (.interp 200) ∧
    decode 0x00030220 = .ok (.split 2 3) ∧ decode 0x00001021 = .ok (.recover 16) ∧
    decode 0x00000030 = .ok .encrypt ∧ decode 0x00000031 = .ok .decrypt ∧ decode 0x00000040 = .ok .rscreate ∧
    decode 0x00000041 = .ok .rsverify ∧ decode 0x00000050 = .ok .mnenc ∧ decode 0x00000051 = .ok .mndec ∧
    decode 0x01000001 = .error .zNotZero ∧ decode 0x00010002 = .error .unusedOperandNotZero ∧
    decode 0x00010030 = .error .unusedOperandNotZero ∧ decode 0x00000130 = .error .unusedOperandNotZero ∧
    decode 0x00000000 = .error .unassignedOpcode ∧ decode 0x000000FF = .error .unassignedOpcode

/-- 30_encoding.md R60, R62, R63: no bit of an operand is dropped. -/
def Obligations.DecodeOfEncode : Prop :=
  ∀ i : Instr, i.wellFormed = true → decode (encode i) = .ok i

/-- 30_encoding.md R62, R63, R64: a word has one meaning, and a decoded command is well-formed. -/
def Obligations.EncodeOfDecode : Prop :=
  ∀ (c : Word) (i : Instr), decode c = .ok i → i.wellFormed = true ∧ encode i = c

/-- 30_encoding.md R62: `mask` and `match` select the command. -/
def Obligations.WordSelectsCommandByMask : Prop :=
  ∀ (c : Word) (row : Instr),
    (∃ i, decode c = .ok i ∧ i.opcode = row.opcode) ↔ c &&& row.mask = row.opcode.setWidth 32

/-! ### Steps -/

/-- 60_exceptions.md R213: with a command pending, the block's turn is the meaning of the decoded command, on the state
with the turn taken off (`turns` is the model's own, log entry 2). -/
def Obligations.StepRunsDecodedCommand : Prop :=
  ∀ (s : State) (i : Instr), (s.turns = [] ∨ ∃ rest, s.turns = .block :: rest) → s.status.busy = true →
    decode s.cmd = .ok i → step s = exec i { s with turns := s.turns.tail }

/-- 60_exceptions.md R213, 70_reset_and_hazards.md R240, R243: a step is the next agent's: the host's access, the reset,
or the block's, which does nothing with no command pending. Which agent is next is said by `turns`, the model's own (log
entry 2). -/
def Obligations.StepTakesTheNextTurn : Prop :=
  ∀ (s : State) (rest : List Turn),
    (∀ a, s.turns = .host a :: rest → step s = .next (hostAccess a { s with turns := rest })) ∧
    (s.turns = .reset :: rest → step s = .next (resetBlock { s with turns := rest })) ∧
    (s.turns = .block :: rest → s.status.busy = false → step s = .next { s with turns := rest }) ∧
    (s.turns = [] → s.status.busy = false → step s = .next s)

/-- 30_encoding.md R64: which words match no row, and what a pending one does: it completes with `IllegalCommand` and
itself in `INFO`. -/
def Obligations.IllegalWordReportsItself : Prop :=
  (∀ c : Word, (∀ row : Instr, c &&& row.mask ≠ row.opcode.setWidth 32) ↔
    (zField c ≠ 0 ∨ opcField c ∉ ([0x01, 0x02, 0x03, 0x10, 0x20, 0x21, 0x30, 0x31, 0x40, 0x41, 0x50, 0x51] : List Byte) ∨
      (opcField c ∈ ([0x02, 0x03, 0x10, 0x21] : List Byte) ∧ bField c ≠ 0) ∨
      (opcField c ∈ ([0x30, 0x31, 0x40, 0x41, 0x50, 0x51] : List Byte) ∧ (aField c ≠ 0 ∨ bField c ≠ 0)))) ∧
  ∀ s : State, s.status.busy = true → (∀ row : Instr, s.cmd &&& row.mask ≠ row.opcode.setWidth 32) →
    blockStep s = .next (errorReport .illegalCommand s.cmd.toNat s)

/-- 30_encoding.md R61: command issue. -/
def Obligations.CmdWriteIssues : Prop :=
  ∀ (s : State) (c : Word), s.status.busy = false →
    hostAccess (.write 0x0000 4 c) s =
      { s with
        cmd := c, err := 0, info := 0,
        status := { s.status with busy := true, done := false, error := false } }

/-- 20_memory.md R45: while busy a 32-bit read of `STATUS` answers it, and any other access is refused. The model's choice:
a read of `STATUS` of another size is one of the other accesses (log entry 7, DEDUCED; R45 does not say); and the port's
answer is in `rdata` (log entry 3). -/
def Obligations.BusyAccessRefused : Prop :=
  ∀ (s : State) (a : Access), s.status.busy = true →
    (a = .read 0x0004 4 → hostAccess a s = { s with rdata := s.status.word }) ∧
    (a ≠ .read 0x0004 4 →
      hostAccess a s = { s with rdata := refusedAnswer a s, status := { s.status with haz := true } })

/-- 20_memory.md R46: the accesses refused while idle. -/
def Obligations.IdleAccessRefused : Prop :=
  ∀ (s : State) (a : Access), Config.ParamsOk s.params → s.status.busy = false → a.RefusedIdle s.params →
    hostAccess a s = { s with rdata := refusedAnswer a s, status := { s.status with badacc := true } }

/-- 20_memory.md R44: while idle a read of a mapped cell answers it and changes nothing; a write that fits replaces the
cell and nothing else; a write to `CMD` also issues. -/
def Obligations.IdleAccessReadsOrReplaces : Prop :=
  ∀ (s : State) (c : PortCell) (addr : Offset), Config.ParamsOk s.params → s.status.busy = false →
    c.Mapped s.params → c.offset = addr.toNat →
    hostAccess (.read addr 4) s = { s with rdata := readCell c s } ∧
    ∀ v : Word, c.writable = true → v.toNat < 2 ^ c.width →
      readCell c (hostAccess (.write addr 4 v) s) = v ∧
      (hostAccess (.write addr 4 v) s).turns = s.turns ∧ (hostAccess (.write addr 4 v) s).rdata = s.rdata ∧
      (hostAccess (.write addr 4 v) s).params = s.params ∧
      (hostAccess (.write addr 4 v) s).drawSerial = s.drawSerial ∧
      (c ≠ .cmd → ∀ d : PortCell, d.Mapped s.params → d ≠ c →
        readCell d (hostAccess (.write addr 4 v) s) = readCell d s) ∧
      (c = .cmd → hostAccess (.write addr 4 v) s = issueCommand v s)

/-- 20_memory.md R41: one cell per offset, both ways. -/
def Obligations.AddressMapIsOneCellPerOffset : Prop :=
  ∀ p : Params, Config.ParamsOk p →
    (∀ c : PortCell, c.Mapped p → c.offset < 0x8000 ∧ cellAt p (BitVec.ofNat 15 c.offset) = some c) ∧
    (∀ (addr : Offset) (c : PortCell), cellAt p addr = some c → c.Mapped p ∧ c.offset = addr.toNat)

/-- 70_reset_and_hazards.md R240: the reset step, from every state. -/
def Obligations.ResetStepClearsEveryCell : Prop :=
  ∀ (s : State) (c : PortCell), readCell c (resetBlock s) = 0

/-- 10_state.md R30: after reset every cell is 0. -/
def Obligations.ResetStateIsAllZero : Prop :=
  ∀ c : PortCell, readCell c State.reset = 0

/-- 70_reset_and_hazards.md R243: after reset the block is idle and does nothing until the host writes `CMD`; what each
command comes to on the all-zero state. -/
def Obligations.CommandsOnTheResetState : Prop :=
  State.reset.status.busy = false ∧ State.reset.status.done = false ∧
    (∀ turns rest, turns = .block :: rest →
      step { State.reset with turns := turns } = .next { State.reset with turns := rest }) ∧
    exec (.gfmul 0 0) State.reset = .next (scalarResult 0 State.reset) ∧
    exec (.gfexp 0) State.reset = .next (scalarResult 1 State.reset) ∧
    exec (.gflog 0) State.reset = .next (scalarResult 0 State.reset) ∧
    (∀ x, exec (.interp x) State.reset = .next (errorReport .badShareCount 0 State.reset)) ∧
    (∀ t, 1 ≤ t → exec (.recover t) State.reset = .next (errorReport .badShareCount 0 State.reset)) ∧
    exec (.recover 0) State.reset = .next (errorReport .invalidThreshold 0 State.reset) ∧
    (∀ t n, 1 ≤ t → t ≤ n → n ≤ 16 →
      exec (.split t n) State.reset = .next (errorReport .badLength 0 State.reset)) ∧
    (∀ i ∈ [Instr.encrypt, .decrypt, .mnenc],
      exec i State.reset = .next (errorReport .badLength 0 State.reset)) ∧
    exec .rscreate State.reset =
      .next { State.reset with
        words := [(0, 413), (1, 424), (2, 113)], wlen := 3, status := doneStatus State.reset } ∧
    exec .rsverify State.reset = .next (scalarResult 0 State.reset) ∧
    exec .mndec State.reset = .next (errorReport .mnemonicTooShort 0 State.reset) ∧
    blockStep (issueCommand 0 State.reset) = .next (errorReport .illegalCommand 0 (issueCommand 0 State.reset))

/-- 93_implementation_defined.md part 2, "No behaviour of the block is `stuck`": every state has a next state. -/
def Obligations.EveryStepAnswersNext : Prop :=
  ∀ s : State, ∃ t, step s = .next t

/-- The invariant of Safety.lean holds at reset. -/
def Obligations.InvHoldsAtReset : Prop := Inv State.reset

/-- The invariant of Safety.lean is kept by every step: canonical arrays within their capacities, `OUT` 0 from `OLEN` on,
`BUSY` and `DONE` never both 1, `ERR` and `INFO` in step with `ERROR`. -/
def Obligations.EveryStepKeepsInv : Prop :=
  ∀ s t : State, Inv s → step s = .next t → Inv t

/-- 10_state.md R17, 20_memory.md R45, R46: but for reset, a step leaves `HAZ` 1 exactly if it was 1 or the step is an access
other than a read of `STATUS` while busy, and `BADACC` 1 exactly if it was 1 or the step is an access that R46 refuses while
idle. The model's choice: a read of `STATUS` of a size other than 32 bits while busy counts as refused (log entry 7,
DEDUCED). -/
def Obligations.StickyBitsSetOnlyByRefusals : Prop :=
  ∀ s t : State, step s = .next t → s.turns.head? ≠ some .reset →
    (t.status.haz = true ↔
      s.status.haz = true ∨ (s.status.busy = true ∧ ∃ a, s.turns.head? = some (.host a) ∧ a ≠ .read 0x0004 4)) ∧
    (Config.ParamsOk s.params →
      (t.status.badacc = true ↔
        s.status.badacc = true ∨
          (s.status.busy = false ∧ ∃ a, s.turns.head? = some (.host a) ∧ a.RefusedIdle s.params)))

/-! ### Every command -/

/-- 10_state.md R12, R14, R24, R26: what no command writes, and which commands write the header registers, `WORDS` and
`WLEN`, and the share table. -/
def Obligations.CommandsWriteOnlyTheirCells : Prop :=
  ∀ (i : Instr) (s t : State), exec i s = .next t →
    t.params = s.params ∧ t.cmd = s.cmd ∧ t.status.haz = s.status.haz ∧ t.status.badacc = s.status.badacc ∧
    t.len = s.len ∧ t.plen = s.plen ∧ t.sec = s.sec ∧ t.pass = s.pass ∧ t.turns = s.turns ∧ t.rdata = s.rdata ∧
    (i ≠ .mndec → headerRegs t = headerRegs s) ∧
    (i ≠ .rscreate → i ≠ .mnenc → t.words = s.words ∧ t.wlen = s.wlen) ∧
    ((∀ a b, i ≠ .split a b) →
      t.svalid = s.svalid ∧ t.sx = s.sx ∧ t.slen = s.slen ∧ t.sdata = s.sdata ∧ t.drawSerial = s.drawSerial)

/-- 60_exceptions.md R214: a command that ends with an error has the error report as its whole effect; the error is one
the command may raise (R210). -/
def Obligations.ErrorReportIsTheWholeEffect : Prop :=
  ∀ (i : Instr) (s t : State), s.status.error = false → exec i s = .next t → t.status.error = true →
    ∃ e info, e ∈ i.mayRaise ∧ t = errorReport e info s

/-- 60_exceptions.md R212: the common completion effects of every command. -/
def Obligations.CommonCompletionEffects : Prop :=
  ∀ (i : Instr) (s : State), ∃ t, exec i s = .next t ∧
    t.status.busy = false ∧ t.status.done = true ∧ t.cmd = s.cmd ∧
    t.status.haz = s.status.haz ∧ t.status.badacc = s.status.badacc ∧
    ((∀ a b, i ≠ .gfmul a b) → (∀ k, i ≠ .gfexp k) → (∀ a, i ≠ .gflog a) → i ≠ .rsverify → t.r0 = 0) ∧
    ((∀ x, i ≠ .interp x) → (∀ k, i ≠ .recover k) → i ≠ .encrypt → i ≠ .decrypt → i ≠ .mndec →
      t.olen = 0 ∧ t.out = []) ∧
    ((t.status.error = s.status.error ∧ t.err = s.err ∧ t.info = s.info) ∨ ∃ e info, t = errorReport e info s)

/-- 10_state.md R12, R14, 45_mnemonic.md R158: the header registers a command is not listed as reading change nothing in it.
`MNDEC` reads none of them and on success writes them all. -/
def Obligations.HeaderRegistersNotRead : Prop :=
  (∀ (i : Instr) (s : State) (h : Header),
    ((∃ a b, i = .gfmul a b) ∨ (∃ k, i = .gfexp k) ∨ (∃ a, i = .gflog a) ∨ (∃ x, i = .interp x) ∨
        (∃ a b, i = .split a b) ∨ (∃ k, i = .recover k) ∨
        ((i = .rscreate ∨ i = .rsverify) ∧ h.extFlag = s.extFlag) ∨
        ((i = .encrypt ∨ i = .decrypt) ∧ h.id = s.id ∧ h.extFlag = s.extFlag ∧ h.itexp = s.itexp)) →
      exec i (writeHeaderRegs h s) = onNext (writeHeaderRegs h) (exec i s)) ∧
  ∀ (s t : State) (h : Header), s.status.error = false → exec .mndec s = .next t →
    (t.status.error = false → exec .mndec (writeHeaderRegs h s) = .next t) ∧
    (t.status.error = true → exec .mndec (writeHeaderRegs h s) = .next (writeHeaderRegs h t))

/-- 10_state.md R14: the length registers a command is not listed as reading (nor writing) change nothing in it. -/
def Obligations.LengthRegistersNotRead : Prop :=
  ∀ (i : Instr) (s : State) (v : Half),
    ((∀ a b, i ≠ .split a b) → i ≠ .encrypt → i ≠ .decrypt → i ≠ .mnenc →
      exec i { s with len := v } = onNext (fun t => { t with len := v }) (exec i s)) ∧
    (i ≠ .encrypt → i ≠ .decrypt →
      exec i { s with plen := v } = onNext (fun t => { t with plen := v }) (exec i s)) ∧
    (i ≠ .rscreate → i ≠ .rsverify → i ≠ .mndec → i ≠ .mnenc →
      exec i { s with wlen := v } = onNext (fun t => { t with wlen := v }) (exec i s))

/-! ### GF(256) -/

/-- 40_gf256.md R80: `EXP` is the table its loop builds, and `EXP[255] = 1`. -/
def Obligations.ExpTableIsGeneratorPowers : Prop :=
  (∀ i, i < 255 → (gfExp i).toNat = expPower i) ∧ gfExp 255 = 1

/-- 40_gf256.md R81: `LOG[a]` is the unique `i` in 0..254 with `EXP[i] = a`, and `LOG[0] = 0`. -/
def Obligations.LogTableInvertsExp : Prop :=
  (∀ a : Byte, a ≠ 0 → gfLog a < 255 ∧ gfExp (gfLog a) = a ∧ ∀ i, i < 255 → gfExp i = a → i = gfLog a) ∧ gfLog 0 = 0

/-- 40_gf256.md R82, last point: the table product is the bitwise product of polynomials reduced by 0x11B. -/
def Obligations.GfMulIsPolynomialProduct : Prop :=
  ∀ a b : Byte, gfMul a b = bitwiseProduct a b

/-- 40_gf256.md R87: the field laws. -/
def Obligations.GfMulFieldLaws : Prop :=
  ∀ a b c : Byte,
    gfMul a b = gfMul b a ∧ gfMul a (gfMul b c) = gfMul (gfMul a b) c ∧ gfMul a 1 = a ∧ gfMul a 0 = 0 ∧
    gfMul a (b ^^^ c) = gfMul a b ^^^ gfMul a c ∧ (a ≠ 0 → gfMul a (gfInv a) = 1) ∧
    (a ≠ 0 → b ≠ 0 → gfMul (gfQuot a b) b = a)

/-- 40_gf256.md R84: `GFMUL a, b`, its word, and where it completes: everywhere. -/
def Obligations.GfmulWritesProduct : Prop :=
  ∀ (a b : Byte) (s : State),
    exec (.gfmul a b) s = .next (scalarResult ((gfMul a b).setWidth 32) s) ∧
    (encode (.gfmul a b)).toNat = 0x01 + a.toNat * 2 ^ 8 + b.toNat * 2 ^ 16

/-- 40_gf256.md R85: `GFEXP i`; the index is not reduced. -/
def Obligations.GfexpReadsTable : Prop :=
  ∀ (k : Byte) (s : State),
    exec (.gfexp k) s = .next (scalarResult ((gfExp k.toNat).setWidth 32) s) ∧
    (encode (.gfexp k)).toNat = 0x02 + k.toNat * 2 ^ 8

/-- 40_gf256.md R86: `GFLOG a`; `GFLOG 0` writes 0. -/
def Obligations.GflogReadsTable : Prop :=
  ∀ (a : Byte) (s : State),
    exec (.gflog a) s = .next (scalarResult (BitVec.ofNat 32 (gfLog a)) s) ∧
    exec (.gflog 0) s = .next (scalarResult 0 s) ∧
    (encode (.gflog a)).toNat = 0x03 + a.toNat * 2 ^ 8

/-! ### Interpolation -/

/-- 41_interp.md R100: `Interp` is the evaluation of the Lagrange polynomial in field arithmetic. -/
def Obligations.InterpolateIsLagrange : Prop :=
  ∀ (P : List (Byte × List Byte)) (n : Nat) (x : Byte), P ≠ [] → SharesOk P n →
    (∀ p ∈ P, p.1 = x → interpolate P x = p.2) ∧
    ((∀ p ∈ P, p.1 ≠ x) →
      (interpolate P x).length = n ∧
      ∀ m, m < n →
        (interpolate P x).getD m 0 =
          P.foldl (fun acc p => acc ^^^ gfMul (p.2.getD m 0) (lagrangeBasis P x p.1)) 0)

/-- 41_interp.md R101: the checks on the share table and their order, for both commands that read it, and the share
list of a table that passes them. -/
def Obligations.CheckSharesOrder : Prop :=
  ∀ (s : State) (i : Instr), ((∃ x, i = .interp x) ∨ ∃ k, k ≠ 0 ∧ i = .recover k) →
    ((∀ a, ¬ SlotValid s a) → exec i s = .next (errorReport .badShareCount 0 s)) ∧
    (∀ a, SlotValid s a → ¬ SlotLenOk s a → (∀ b, b < a → SlotValid s b → SlotLenOk s b) →
      exec i s = .next (errorReport .badLength (slotLen s a).toNat s)) ∧
    (∀ a b, SlotValid s a → (∀ c, c < a → ¬ SlotValid s c) → SlotValid s b → slotLen s b ≠ slotLen s a →
      (∀ c, c < b → SlotValid s c → slotLen s c = slotLen s a) → (∀ c, SlotValid s c → SlotLenOk s c) →
      exec i s =
        .next (errorReport .inconsistentShareLength ((slotLen s b).toNat * 2 ^ 16 + (slotLen s a).toNat) s)) ∧
    (∀ a b, SlotValid s a → SlotValid s b → a < b → slotX s a = slotX s b →
      (∀ c d, SlotValid s c → SlotValid s d → c < d → slotX s c = slotX s d → a < c ∨ (a = c ∧ b ≤ d)) →
      (∀ c, SlotValid s c → SlotLenOk s c ∧ slotLen s c = slotLen s a) →
      exec i s = .next (errorReport .duplicateIndex (b * 2 ^ 8 + a) s)) ∧
    ∀ n, TableOk s n → checkShares s = .ok (shareList s n, n)

/-- 41_interp.md R102: `INTERP x`, its checks (spelled out in `CheckSharesOrder`), its result on a table that passes them,
and its word. -/
def Obligations.InterpFollowsItsRule : Prop :=
  ∀ (s : State) (x : Byte),
    (∀ e, checkShares s = .error e → exec (.interp x) s = .next (errorReport e.err e.info.toNat s)) ∧
    (∀ n, TableOk s n →
      exec (.interp x) s = .next (byteResult (interpolate (shareList s n) x) s) ∧
      (interpolate (shareList s n) x).length = n) ∧
    (encode (.interp x)).toNat = 0x10 + x.toNat * 2 ^ 8

/-- 41_interp.md R102: the result does not depend on the order of the shares. -/
def Obligations.InterpolateIgnoresOrder : Prop :=
  ∀ (P Q : List (Byte × List Byte)) (n : Nat) (x : Byte), SharesOk P n → P.Perm Q → interpolate P x = interpolate Q x

/-- 41_interp.md R102: with one share the polynomial is constant. -/
def Obligations.SingleShareIsConstant : Prop :=
  ∀ (x y : Byte) (v : List Byte), interpolate [(y, v)] x = v

/-- 41_interp.md R103, re-derivation: any `k` or more points of the polynomial through `k` points determine it. -/
def Obligations.PointsDetermineThePolynomial : Prop :=
  ∀ (P : List (Byte × List Byte)) (n : Nat) (ys : List Byte), P ≠ [] → SharesOk P n → ys.Nodup →
    P.length ≤ ys.length →
    ∀ z : Byte, interpolate (ys.map fun y => (y, interpolate P y)) z = interpolate P z

/-- 41_interp.md R103: the basis values at a point that is none of the share list's sum to one. -/
def Obligations.BasisValuesSumToOne : Prop :=
  ∀ (P : List (Byte × List Byte)) (x : Byte), P ≠ [] → (P.map Prod.fst).Nodup → (∀ p ∈ P, p.1 ≠ x) →
    P.foldl (fun acc p => acc ^^^ gfExp (basisLog P x p.1)) 0 = 1

/-! ### Shamir -/

/-- 42_shamir.md R115: `SPLIT t, n`, its checks in order, its result and its word. The draws are free values: the
statement holds for each (10_state.md R29, log entry 4). -/
def Obligations.SplitFollowsItsRule : Prop :=
  ∀ (s : State) (t n : Nat), Config.ParamsOk s.params →
    (t = 0 ∨ n < t → exec (.split t n) s = .next (errorReport .invalidThreshold (n * 2 ^ 8 + t) s)) ∧
    (t ≠ 0 → t ≤ n → 16 < n → exec (.split t n) s = .next (errorReport .tooManyShares n s)) ∧
    (t ≠ 0 → t ≤ n → n ≤ 16 →
      (s.len.toNat = 0 ∨ s.params.maxLen < s.len.toNat ∨ (1 < t ∧ s.len.toNat < 4)) →
      exec (.split t n) s = .next (errorReport .badLength s.len.toNat s)) ∧
    (t ≠ 0 → t ≤ n → n ≤ 16 → s.len.toNat ≠ 0 → s.len.toNat ≤ s.params.maxLen → (t = 1 ∨ 4 ≤ s.len.toNat) →
      ∃ u, exec (.split t n) s = .next u ∧
        ShareTableIs u n s.len.toNat (fun i =>
          if t = 1 then secretBytes s
          else if i < t - 2 then drawOf s (.share i) s.len.toNat
          else interpolate (splitBasis s t) (BitVec.ofNat 8 i)) ∧
        u = { s with
          svalid := u.svalid, sx := u.sx, slen := u.slen, sdata := u.sdata, r0 := 0, olen := 0, out := [],
          status := doneStatus s, drawSerial := u.drawSerial }) ∧
    (t < 256 → n < 256 → (encode (.split t n)).toNat = 0x20 + t * 2 ^ 8 + n * 2 ^ 16)

/-- 10_state.md R29: no two commands share a draw. The model's choice (log entry 4): the counter that names the draws moves
on with every `SPLIT` that takes some, and with no other command. -/
def Obligations.SplitTakesFreshDraws : Prop :=
  ∀ (s : State) (t n : Nat), t ≤ n → n ≤ 16 → s.len.toNat ≠ 0 → s.len.toNat ≤ s.params.maxLen →
    (∀ u, exec (.split 1 n) s = .next u → u.drawSerial = s.drawSerial) ∧
    (1 < t → 4 ≤ s.len.toNat → ∃ u, exec (.split t n) s = .next u ∧ u.drawSerial = s.drawSerial + 1)

/-- 42_shamir.md R117: `RECOVER t`, its checks in order (those of the table are spelled out in `CheckSharesOrder`), its
result and its word. -/
def Obligations.RecoverFollowsItsRule : Prop :=
  ∀ (s : State) (t n : Nat),
    exec (.recover 0) s = .next (errorReport .invalidThreshold 0 s) ∧
    (t ≠ 0 → ∀ e, checkShares s = .error e → exec (.recover t) s = .next (errorReport e.err e.info.toNat s)) ∧
    (TableOk s n → t = 1 → (shareList s n).length ≠ 1 →
      exec (.recover t) s = .next (errorReport .badShareCount (shareList s n).length s)) ∧
    (TableOk s n → t = 1 → ∀ a, SlotValid s a → (∀ b, SlotValid s b → b = a) →
      exec (.recover t) s = .next (byteResult (slotData s a n) s)) ∧
    (TableOk s n → 1 < t → n < 4 → exec (.recover t) s = .next (errorReport .badLength n s)) ∧
    (TableOk s n → 1 < t → 4 ≤ n →
      shareDigest ((interpolate (shareList s n) 254).drop 4) (interpolate (shareList s n) 255) ≠
        (interpolate (shareList s n) 254).take 4 →
      exec (.recover t) s = .next (errorReport .digestMismatch 0 s)) ∧
    (TableOk s n → 1 < t → 4 ≤ n →
      shareDigest ((interpolate (shareList s n) 254).drop 4) (interpolate (shareList s n) 255) =
        (interpolate (shareList s n) 254).take 4 →
      exec (.recover t) s = .next (byteResult (interpolate (shareList s n) 255) s)) ∧
    (t < 256 → (encode (.recover t)).toNat = 0x21 + t * 2 ^ 8)

/-- 42_shamir.md R118, round trip: after `SPLIT t, n`, any `t` or more of its slots (exactly one for `t = 1`) recover the
secret, for every draw. -/
def Obligations.SplitThenRecover : Prop :=
  ∀ (s : State) (t n : Nat), Config.ParamsOk s.params → t ≠ 0 → t ≤ n → n ≤ 16 → s.len.toNat ≠ 0 →
    s.len.toNat ≤ s.params.maxLen → (t = 1 ∨ 4 ≤ s.len.toNat) →
    ∃ u, exec (.split t n) s = .next u ∧
      ∀ chosen : Half, (∀ i, chosen.getLsbD i = true → i < n) →
        t ≤ ((List.range 16).filter fun i => chosen.getLsbD i).length →
        (t = 1 → ((List.range 16).filter fun i => chosen.getLsbD i).length = 1) →
        exec (.recover t) { u with svalid := chosen } =
          .next (byteResult (secretBytes s) { u with svalid := chosen })

/-- 42_shamir.md R118, digest integrity: a `RECOVER` with threshold above 1 that succeeds has checked the digest of what
it put into `OUT`. -/
def Obligations.RecoverSuccessMeansDigestHeld : Prop :=
  ∀ (s u : State) (t n : Nat), TableOk s n → 1 < t → s.status.error = false → exec (.recover t) s = .next u →
    u.status.error = false →
    u.olen.toNat = n ∧ Memory.readList u.out 0 n = interpolate (shareList s n) 255 ∧
    shareDigest ((interpolate (shareList s n) 254).drop 4) (Memory.readList u.out 0 n) =
      (interpolate (shareList s n) 254).take 4

/-- 46_hash_primitives.md R170, R174, R175: the output lengths of the hash suite. -/
def Obligations.HashOutputLengths : Prop :=
  (∀ m : List Byte, (sha256 m).length = 32) ∧
    (∀ key msg : List Byte, (hmacSha256 key msg).length = 32) ∧
    ∀ (password salt : List Byte) (c dkLen : Nat), (pbkdf2 password salt c dkLen).length = dkLen

/-! ### Feistel -/

/-- 43_feistel.md R131: the iteration count of one PBKDF2 call; the division is exact. -/
def Obligations.RoundIterationCount : Prop :=
  ∀ e : Nat, roundIterations e = 2500 * 2 ^ e ∧ 4 * roundIterations e = 10000 * 2 ^ e

/-- 43_feistel.md R132: `ENCRYPT`, its checks in order, its result and its word. -/
def Obligations.EncryptFollowsItsRule : Prop :=
  ∀ s : State,
    (¬ SecretLenOk s → exec .encrypt s = .next (errorReport .badLength s.len.toNat s)) ∧
    (SecretLenOk s → s.params.maxPass < s.plen.toNat →
      exec .encrypt s = .next (errorReport .badLength s.plen.toNat s)) ∧
    (SecretLenOk s → s.plen.toNat ≤ s.params.maxPass →
      ∀ i, i < s.plen.toNat → ¬ Printable (Memory.read s.pass i) → (∀ j, j < i → Printable (Memory.read s.pass j)) →
      exec .encrypt s =
        .next (errorReport .invalidPassphraseCharset (i * 2 ^ 8 + (Memory.read s.pass i).toNat) s)) ∧
    (SecretLenOk s → s.plen.toNat ≤ s.params.maxPass →
      (∀ i, i < s.plen.toNat → Printable (Memory.read s.pass i)) →
      exec .encrypt s =
        .next (byteResult (crypt (secretBytes s) (passBytes s) s.itexp s.id s.extFlag true) s) ∧
      (crypt (secretBytes s) (passBytes s) s.itexp s.id s.extFlag true).length = s.len.toNat) ∧
    encode .encrypt = 0x00000030

/-- 43_feistel.md R133: `DECRYPT`: every passphrase byte is accepted. -/
def Obligations.DecryptFollowsItsRule : Prop :=
  ∀ s : State,
    (¬ SecretLenOk s → exec .decrypt s = .next (errorReport .badLength s.len.toNat s)) ∧
    (SecretLenOk s → s.params.maxPass < s.plen.toNat →
      exec .decrypt s = .next (errorReport .badLength s.plen.toNat s)) ∧
    (SecretLenOk s → s.plen.toNat ≤ s.params.maxPass →
      exec .decrypt s =
        .next (byteResult (crypt (secretBytes s) (passBytes s) s.itexp s.id s.extFlag false) s) ∧
      (crypt (secretBytes s) (passBytes s) s.itexp s.id s.extFlag false).length = s.len.toNat) ∧
    encode .decrypt = 0x00000031

/-- 43_feistel.md R134: encryption and decryption undo each other, as functions and as commands: `ENCRYPT`, `OUT` copied to
`SEC`, `DECRYPT`. -/
def Obligations.CryptInverse : Prop :=
  (∀ (secret pass : List Byte) (e : BitVec 4) (id : BitVec 15) (ext : BitVec 1), secret.length % 2 = 0 →
    crypt (crypt secret pass e id ext true) pass e id ext false = secret ∧
    crypt (crypt secret pass e id ext false) pass e id ext true = secret) ∧
  (∀ s : State, SecretLenOk s → s.plen.toNat ≤ s.params.maxPass →
    (∀ i, i < s.plen.toNat → Printable (Memory.read s.pass i)) →
    ∃ t, exec .encrypt s = .next t ∧
      ∀ m : Memory 8, Memory.readList m 0 s.len.toNat = Memory.readList t.out 0 s.len.toNat →
        exec .decrypt { t with sec := m } = .next (byteResult (secretBytes s) { t with sec := m }))

/-! ### RS1024 -/

/-- 44_rs1024.md R141: `Polymod` is the loop on integers, and stays below `2 ^ 30`. -/
def Obligations.PolymodIsTheIntegerLoop : Prop :=
  ∀ vs : List MnWord, (polymod vs).toNat = polymodNat (vs.map BitVec.toNat) ∧ polymodNat (vs.map BitVec.toNat) < 2 ^ 30

/-- 44_rs1024.md R143: a created checksum verifies. -/
def Obligations.CreatedChecksumVerifies : Prop :=
  ∀ (data : List MnWord) (ext : BitVec 1), rsVerify (data ++ rsCreate data ext) ext = true

/-- 44_rs1024.md R146, for one word: a substituted word is always detected, the flag unchanged. -/
def Obligations.SingleWordErrorDetected : Prop :=
  ∀ (ws : List MnWord) (k : Nat) (v : MnWord) (ext : BitVec 1), k < ws.length → rsVerify ws ext = true →
    v ≠ ws.getD k 0 → rsVerify (ws.set k v) ext = false

/-- 44_rs1024.md R144: `RSCREATE`. -/
def Obligations.RscreateFollowsItsRule : Prop :=
  ∀ s : State, Config.ParamsOk s.params →
    (s.params.maxWords < s.wlen.toNat + 3 → exec .rscreate s = .next (errorReport .badLength s.wlen.toNat s)) ∧
    (s.wlen.toNat + 3 ≤ s.params.maxWords →
      ∃ t, exec .rscreate s = .next t ∧ t.wlen.toNat = s.wlen.toNat + 3 ∧
        (∀ j, Memory.read t.words j =
          if s.wlen.toNat ≤ j ∧ j < s.wlen.toNat + 3 then
            (rsCreate (mnemonicWords s) s.extFlag).getD (j - s.wlen.toNat) 0
          else Memory.read s.words j) ∧
        t = { s with words := t.words, wlen := t.wlen, r0 := 0, olen := 0, out := [], status := doneStatus s }) ∧
    encode .rscreate = 0x00000040

/-- 44_rs1024.md R145: `RSVERIFY`; a mismatch is a result, not an error. -/
def Obligations.RsverifyFollowsItsRule : Prop :=
  ∀ s : State,
    (s.params.maxWords < s.wlen.toNat → exec .rsverify s = .next (errorReport .badLength s.wlen.toNat s)) ∧
    (s.wlen.toNat ≤ s.params.maxWords →
      exec .rsverify s = .next (scalarResult (if rsVerify (mnemonicWords s) s.extFlag then 1 else 0) s)) ∧
    encode .rsverify = 0x00000041

/-! ### Mnemonics -/

/-- 45_mnemonic.md R152: the four header words are the 40-bit string of the fields. -/
def Obligations.HeaderWordsAreTheFortyBitString : Prop :=
  ∀ h : Header, HeaderOk h → (headerWords h).length = 4 ∧ ofDigits (headerWords h) = headerInteger h

/-- 45_mnemonic.md R157: `Unpack` is the inverse of the packing, both ways, and its fields are in range. -/
def Obligations.UnpackInvertsPacking : Prop :=
  (∀ (h : Header) (rest : List MnWord), HeaderOk h → unpackHeader (headerWords h ++ rest) = h) ∧
    ∀ w0 w1 w2 w3 : MnWord,
      HeaderOk (unpackHeader [w0, w1, w2, w3]) ∧ headerWords (unpackHeader [w0, w1, w2, w3]) = [w0, w1, w2, w3]

/-- 45_mnemonic.md R151, R154: word count, padding and length of an even length fit together. -/
def Obligations.PaddingOfEvenLengths : Prop :=
  ∀ n : Nat, n % 2 = 0 →
    paddingBits (valueWordCount n) = 10 * valueWordCount n - 8 * n ∧ paddingBits (valueWordCount n) ≤ 8 ∧
    valueLength (valueWordCount n) = n

/-- 45_mnemonic.md R155, R156: `MNENC`, its checks in order, its result and its word. -/
def Obligations.MnencFollowsItsRule : Prop :=
  ∀ s : State, Config.ParamsOk s.params →
    (¬ SecretLenOk s → exec .mnenc s = .next (errorReport .badLength s.len.toNat s)) ∧
    (SecretLenOk s → ¬ FieldOk s.gt → exec .mnenc s = .next (errorReport .badField 1 s)) ∧
    (SecretLenOk s → FieldOk s.gt → ¬ FieldOk s.gc → exec .mnenc s = .next (errorReport .badField 2 s)) ∧
    (SecretLenOk s → FieldOk s.gt → FieldOk s.gc → ¬ FieldOk s.mt →
      exec .mnenc s = .next (errorReport .badField 3 s)) ∧
    (SecretLenOk s → HeaderOk (headerRegs s) → s.gc.toNat < s.gt.toNat →
      exec .mnenc s = .next (errorReport .groupCountInconsistent (s.gc.toNat * 2 ^ 8 + s.gt.toNat) s)) ∧
    (SecretLenOk s → HeaderOk (headerRegs s) → s.gt.toNat ≤ s.gc.toNat →
      ∃ t, exec .mnenc s = .next t ∧ t.wlen.toNat = 7 + (8 * s.len.toNat + 9) / 10 ∧
        (∀ body, body = headerWords (headerRegs s) ++ wordsBE (intBE (secretBytes s)) ((8 * s.len.toNat + 9) / 10) →
          ∀ j, Memory.read t.words j =
            if j < 7 + (8 * s.len.toNat + 9) / 10 then (body ++ rsCreate body s.extFlag).getD j 0
            else Memory.read s.words j) ∧
        t = { s with words := t.words, wlen := t.wlen, r0 := 0, olen := 0, out := [], status := doneStatus s }) ∧
    encode .mnenc = 0x00000050

/-- 45_mnemonic.md R158 (with R154, R157): `MNDEC`, its checks in order, its result and its word; the flag is the one in
the words. -/
def Obligations.MndecFollowsItsRule : Prop :=
  ∀ (s : State) (k vw pad n val : Nat) (w : List MnWord) (f : Header),
    k = s.wlen.toNat → vw = k - 7 → pad = 10 * vw % 16 → n = (10 * vw - pad) / 8 → w = mnemonicWords s →
    val = intWords ((w.drop 4).take vw) → f = unpackHeader w →
    (s.params.maxWords < k → exec .mndec s = .next (errorReport .badLength k s)) ∧
    (k ≤ s.params.maxWords → k < 20 → exec .mndec s = .next (errorReport .mnemonicTooShort k s)) ∧
    (k ≤ s.params.maxWords → 20 ≤ k → rsVerify w f.extFlag = false →
      exec .mndec s = .next (errorReport .invalidChecksum 0 s)) ∧
    (k ≤ s.params.maxWords → 20 ≤ k → rsVerify w f.extFlag = true → (8 < pad ∨ 2 ^ (8 * n) ≤ val) →
      exec .mndec s = .next (errorReport .invalidPadding pad s)) ∧
    (k ≤ s.params.maxWords → 20 ≤ k → rsVerify w f.extFlag = true → pad ≤ 8 → val < 2 ^ (8 * n) →
      f.gc.toNat < f.gt.toNat →
      exec .mndec s = .next (errorReport .groupCountInconsistent (f.gc.toNat * 2 ^ 8 + f.gt.toNat) s)) ∧
    (k ≤ s.params.maxWords → 20 ≤ k → rsVerify w f.extFlag = true → pad ≤ 8 → val < 2 ^ (8 * n) →
      f.gt.toNat ≤ f.gc.toNat → s.params.maxLen < n → exec .mndec s = .next (errorReport .badLength n s)) ∧
    (k ≤ s.params.maxWords → 20 ≤ k → rsVerify w f.extFlag = true → pad ≤ 8 → val < 2 ^ (8 * n) →
      f.gt.toNat ≤ f.gc.toNat → n ≤ s.params.maxLen →
      exec .mndec s = .next (byteResult (bytesBE val n) (writeHeaderRegs f s))) ∧
    encode .mndec = 0x00000051

/-- 45_mnemonic.md R159: `MNDEC` right after `MNENC` gives back the fields and the bytes. -/
def Obligations.MnencThenMndec : Prop :=
  ∀ s : State, Config.ParamsOk s.params → SecretLenOk s → HeaderOk (headerRegs s) → s.gt.toNat ≤ s.gc.toNat →
    ∃ t, exec .mnenc s = .next t ∧ exec .mndec t = .next (byteResult (secretBytes s) t)

/-! ### The host's scripts -/

/-- 30_encoding.md R66, `RUN`: from an idle block, the host's run of a command ends as the command's meaning on the issued
state does, with its error's code and context if it has one, and sets no sticky bit (70_reset_and_hazards.md R246). The
model's choice (log entry 9): the block's step comes right after the write to `CMD`, so that one read of `STATUS` stands for
the reads R66 repeats until `DONE`. -/
def Obligations.RunReportsTheCommand : Prop :=
  ∀ (i : Instr) (s : State), i.wellFormed = true → s.status.busy = false →
    ∃ t, exec i (issueCommand (encode i) s) = .next t ∧
      t.status.haz = s.status.haz ∧ t.status.badacc = s.status.badacc ∧
      (t.status.error = true → runCommand i s = .error (.command t.err t.info)) ∧
      (t.status.error = false → runCommand i s = .ok { t with rdata := t.status.word })
end

