-- ==== Sys2Proof/Laws/HostFlow.lean ====
section
/-!
SUPPORT. The laws of the host's script statements: which offset a statement uses, what becomes of an element at or beyond
its capacity, and the bytes of a passphrase.
-/
namespace Sys2Proof.Machine

theorem cellAt_unmappedOffset (p : Params) : cellAt p unmappedOffset = none := by
  simp [cellAt, unmappedOffset, arrayIndex]

theorem cellOffset_of_mapped {p : Params} {c : PortCell} (h : cellAt p (BitVec.ofNat 15 c.offset) = some c) :
    cellOffset p c = BitVec.ofNat 15 c.offset := if_pos h

theorem cellOffset_of_unmapped {p : Params} {c : PortCell} (h : cellAt p (BitVec.ofNat 15 c.offset) ≠ some c) :
    cellOffset p c = unmappedOffset := if_neg h

/-- A `SET` of an element at or beyond its capacity is refused, whatever its number. -/
theorem setCell_of_unmapped {c : PortCell} {s : State} (v : Word)
    (h : cellAt s.params (BitVec.ofNat 15 c.offset) ≠ some c) :
    setCell c v s = if s.status.busy then refuseBusy s else refuseIdle s := by
  simp [setCell, cellOffset_of_unmapped h, hostAccess, hostWrite, reachedCell, cellAt_unmappedOffset]

/-- A `GET` of an element at or beyond its capacity is refused and answers 0. -/
theorem getCell_of_unmapped {c : PortCell} {s : State} (h : cellAt s.params (BitVec.ofNat 15 c.offset) ≠ some c) :
    getCell c s = answerRead 0 (if s.status.busy then refuseBusy s else refuseIdle s) := by
  cases hb : s.status.busy <;>
    simp [getCell, cellOffset_of_unmapped h, hostAccess, hostRead, reachedCell, cellAt_unmappedOffset, hb]

theorem utf8Char_ascii {c : Char} (h : c.val.toNat < 0x80) : utf8Char c = [BitVec.ofNat 8 c.val.toNat] := if_pos h

/-- The bytes of an ASCII passphrase are its character codes, one each (48_host_flows.md R190). -/
theorem passphraseBytes_ascii {cs : List Char} (h : ∀ c ∈ cs, c.val.toNat < 0x80) :
    passphraseBytes cs = cs.map fun c => BitVec.ofNat 8 c.val.toNat := by
  induction cs with
  | nil => rfl
  | cons c rest ih =>
    have hr := ih fun d hd => h d (List.mem_cons_of_mem c hd)
    simp only [passphraseBytes, List.flatMap_cons, List.map_cons] at hr ⊢
    rw [hr, utf8Char_ascii (h c List.mem_cons_self), List.singleton_append]

/-- The first byte of a character that is not ASCII is not printable ASCII, so `ENCRYPT` refuses it (43_feistel.md R132). -/
theorem utf8Char_not_ascii {c : Char} (h : 0x80 ≤ c.val.toNat) : ∃ b bs, utf8Char c = b :: bs ∧ notPrintable b = true := by
  have hv : c.val.toNat < 0x110000 := by
    have := c.valid
    simp only [UInt32.isValidChar, Nat.isValidChar] at this
    omega
  unfold utf8Char
  simp only [Nat.not_lt.2 h, if_false]
  repeat' split
  all_goals
    refine ⟨_, _, rfl, ?_⟩
    simp only [notPrintable, Bool.or_eq_true, decide_eq_true_eq, BitVec.lt_def, BitVec.toNat_ofNat,
      show (0x20 : Byte).toNat = 32 from rfl, show (0x7E : Byte).toNat = 126 from rfl]
    omega

end Sys2Proof.Machine
end

