-- ==== Sys2Proof/Laws/Memory.lean ====
section
/-!
SUPPORT. The laws of arrays of cells: a read after a write, and that every operation keeps the canonical form. None needs
the array to be canonical to begin with except where it says so.
-/
namespace Sys2Proof.Machine

variable {w : Nat}

@[simp] theorem Memory.read_nil (k : Nat) : Memory.read ([] : Memory w) k = 0 := rfl

theorem Memory.read_cons (j k : Nat) (u : BitVec w) (m : Memory w) :
    Memory.read ((j, u) :: m) k = if j = k then u else Memory.read m k := rfl

theorem Memory.read_eq_zero_of_not_listed (m : Memory w) (k : Nat) (h : ∀ c ∈ m, c.1 ≠ k) : Memory.read m k = 0 := by
  induction m with
  | nil => rfl
  | cons c rest ih =>
    obtain ⟨j, u⟩ := c
    rw [Memory.read_cons, if_neg (h (j, u) (by simp))]
    exact ih fun c hc => h c (List.mem_cons_of_mem _ hc)

theorem Memory.mem_erase {m : Memory w} {k : Nat} {c : Nat × BitVec w} :
    c ∈ Memory.erase m k ↔ c ∈ m ∧ c.1 ≠ k := by
  simp [Memory.erase]

theorem Memory.read_erase_same (m : Memory w) (k : Nat) : Memory.read (Memory.erase m k) k = 0 :=
  Memory.read_eq_zero_of_not_listed _ _ fun _ hc => (Memory.mem_erase.mp hc).2

theorem Memory.read_erase_other (m : Memory w) {k j : Nat} (h : j ≠ k) :
    Memory.read (Memory.erase m k) j = Memory.read m j := by
  induction m with
  | nil => rfl
  | cons c rest ih =>
    obtain ⟨i, u⟩ := c
    by_cases hi : i = k
    · have : Memory.erase ((i, u) :: rest) k = Memory.erase rest k := by simp [Memory.erase, hi]
      rw [this, ih, Memory.read_cons, if_neg (by omega)]
    · have : Memory.erase ((i, u) :: rest) k = (i, u) :: Memory.erase rest k := by simp [Memory.erase, hi]
      rw [this, Memory.read_cons, Memory.read_cons, ih]

theorem Memory.mem_insert {m : Memory w} {k : Nat} {v : BitVec w} {c : Nat × BitVec w} :
    c ∈ Memory.insert m k v ↔ c = (k, v) ∨ c ∈ m := by
  induction m with
  | nil => simp [Memory.insert]
  | cons d rest ih =>
    obtain ⟨j, u⟩ := d
    by_cases h : k < j
    · simp [Memory.insert, h]
    · simp only [Memory.insert, h, if_false, List.mem_cons, ih]
      constructor <;> (rintro (h | h | h) <;> simp [h])

theorem Memory.read_insert_same (m : Memory w) (k : Nat) (v : BitVec w) (h : ∀ c ∈ m, c.1 ≠ k) :
    Memory.read (Memory.insert m k v) k = v := by
  induction m with
  | nil => simp [Memory.insert, Memory.read_cons]
  | cons d rest ih =>
    obtain ⟨j, u⟩ := d
    have hj : j ≠ k := h (j, u) (by simp)
    by_cases hk : k < j
    · simp [Memory.insert, hk, Memory.read_cons]
    · simp only [Memory.insert, hk, if_false, Memory.read_cons, if_neg hj]
      exact ih fun c hc => h c (List.mem_cons_of_mem _ hc)

theorem Memory.read_insert_other (m : Memory w) {k j : Nat} (v : BitVec w) (h : j ≠ k) :
    Memory.read (Memory.insert m k v) j = Memory.read m j := by
  induction m with
  | nil => simp [Memory.insert, Memory.read_cons, Ne.symm h]
  | cons d rest ih =>
    obtain ⟨i, u⟩ := d
    by_cases hk : k < i
    · simp [Memory.insert, hk, Memory.read_cons, Ne.symm h]
    · simp [Memory.insert, hk, Memory.read_cons, ih]

/-- A read of the element written gives the value written. -/
@[simp] theorem Memory.read_write_same (m : Memory w) (k : Nat) (v : BitVec w) :
    Memory.read (Memory.write m k v) k = v := by
  unfold Memory.write
  split
  · next h => rw [Memory.read_erase_same, h]
  · exact Memory.read_insert_same _ _ _ fun c hc => (Memory.mem_erase.mp hc).2

/-- A write leaves every other element alone. -/
theorem Memory.read_write_other (m : Memory w) {k j : Nat} (v : BitVec w) (h : j ≠ k) :
    Memory.read (Memory.write m k v) j = Memory.read m j := by
  unfold Memory.write
  split
  · exact Memory.read_erase_other _ h
  · rw [Memory.read_insert_other _ _ h, Memory.read_erase_other _ h]

theorem Memory.read_write (m : Memory w) (k j : Nat) (v : BitVec w) :
    Memory.read (Memory.write m k v) j = if j = k then v else Memory.read m j := by
  by_cases h : j = k
  · simp [h]
  · simp [h, Memory.read_write_other _ _ h]

/-- What an array reads after a sequence was written into it. -/
theorem Memory.read_writeList (vs : List (BitVec w)) (m : Memory w) (base j : Nat) :
    Memory.read (Memory.writeList m base vs) j =
      if base ≤ j ∧ j < base + vs.length then vs.getD (j - base) 0 else Memory.read m j := by
  induction vs generalizing m base with
  | nil => simp [Memory.writeList, show ¬(base ≤ j ∧ j < base) by omega]
  | cons v rest ih =>
    rw [Memory.writeList, ih, Memory.read_write]
    by_cases hj : j = base
    · subst hj
      rw [if_neg (by omega), if_pos rfl, if_pos (by simp)]
      simp
    · by_cases hin : base + 1 ≤ j ∧ j < base + 1 + rest.length
      · rw [if_pos hin, if_pos (by simp; omega)]
        obtain ⟨d, hd⟩ : ∃ d, j - base = d + 1 := ⟨j - base - 1, by omega⟩
        rw [hd, show j - (base + 1) = d by omega]
        simp
      · rw [if_neg hin, if_neg hj, if_neg (by simp; omega)]

/-- What the array of a sequence reads. -/
theorem Memory.read_ofList (vs : List (BitVec w)) (base j : Nat) :
    Memory.read (Memory.ofList base vs) j = if base ≤ j then vs.getD (j - base) 0 else 0 := by
  induction vs generalizing base with
  | nil => simp [Memory.ofList]
  | cons v rest ih =>
    have key : ∀ h : j ≠ base, Memory.read (Memory.ofList (base + 1) rest) j =
        if base ≤ j then (v :: rest).getD (j - base) 0 else 0 := by
      intro h
      rw [ih]
      by_cases hj : base + 1 ≤ j
      · obtain ⟨d, hd⟩ : ∃ d, j - base = d + 1 := ⟨j - base - 1, by omega⟩
        rw [if_pos hj, if_pos (by omega), hd, show j - (base + 1) = d by omega]
        simp
      · rw [if_neg hj, if_neg (by omega)]
    by_cases hj : j = base
    · subst hj
      unfold Memory.ofList
      split
      · next h => rw [ih, if_neg (by omega)]; simp [h]
      · simp [Memory.read_cons]
    · unfold Memory.ofList
      split
      · exact key hj
      · rw [Memory.read_cons, if_neg (Ne.symm hj)]; exact key hj

@[simp] theorem Memory.length_readList (m : Memory w) (base n : Nat) : (Memory.readList m base n).length = n := by
  simp [Memory.readList]

theorem Memory.getD_readList (m : Memory w) (base n j : Nat) :
    (Memory.readList m base n).getD j 0 = if j < n then Memory.read m (base + j) else 0 := by
  by_cases h : j < n <;> simp [Memory.readList, List.getD_eq_getElem?_getD, h]

/-- Reading back the array of a sequence gives the sequence. -/
theorem Memory.readList_ofList (vs : List (BitVec w)) (base : Nat) :
    Memory.readList (Memory.ofList base vs) base vs.length = vs := by
  apply List.ext_getElem (by simp)
  intro i h1 h2
  simp [Memory.readList, Memory.read_ofList, h2]

/-! ### The canonical form -/

theorem Memory.wf_nil (cap : Nat) : Memory.wf cap ([] : Memory w) := by simp [Memory.wf]

theorem Memory.wf_mono {cap cap' : Nat} {m : Memory w} (h : Memory.wf cap m) (hc : cap ≤ cap') : Memory.wf cap' m :=
  ⟨h.1, fun c hm => ⟨Nat.lt_of_lt_of_le (h.2 c hm).1 hc, (h.2 c hm).2⟩⟩

theorem Memory.wf_erase {cap : Nat} {m : Memory w} (h : Memory.wf cap m) (k : Nat) : Memory.wf cap (Memory.erase m k) :=
  ⟨h.1.filter _, fun c hc => h.2 c (Memory.mem_erase.mp hc).1⟩

theorem Memory.pairwise_insert {m : Memory w} {k : Nat} {v : BitVec w} (h : m.Pairwise fun a b => a.1 < b.1)
    (hk : ∀ c ∈ m, c.1 ≠ k) : (Memory.insert m k v).Pairwise fun a b => a.1 < b.1 := by
  induction m with
  | nil => simp [Memory.insert]
  | cons d rest ih =>
    obtain ⟨j, u⟩ := d
    have hrest := List.pairwise_cons.mp h
    have hj : j ≠ k := hk (j, u) (by simp)
    by_cases hlt : k < j
    · simp only [Memory.insert, hlt, if_true]
      refine List.pairwise_cons.mpr ⟨fun c hc => ?_, h⟩
      rcases List.mem_cons.mp hc with rfl | hc
      · exact hlt
      · exact Nat.lt_trans hlt (hrest.1 c hc)
    · simp only [Memory.insert, hlt, if_false]
      refine List.pairwise_cons.mpr ⟨fun c hc => ?_, ih hrest.2 fun c hc => hk c (List.mem_cons_of_mem _ hc)⟩
      rcases Memory.mem_insert.mp hc with rfl | hc
      · show j < k; omega
      · exact hrest.1 c hc

theorem Memory.wf_write {cap : Nat} {m : Memory w} (h : Memory.wf cap m) {k : Nat} (hk : k < cap) (v : BitVec w) :
    Memory.wf cap (Memory.write m k v) := by
  unfold Memory.write
  split
  · exact Memory.wf_erase h k
  · next hv =>
    refine ⟨Memory.pairwise_insert (Memory.wf_erase h k).1 fun c hc => (Memory.mem_erase.mp hc).2, fun c hc => ?_⟩
    rcases Memory.mem_insert.mp hc with rfl | hc
    · exact ⟨hk, hv⟩
    · exact (Memory.wf_erase h k).2 c hc

theorem Memory.wf_writeList {cap : Nat} (vs : List (BitVec w)) {m : Memory w} (h : Memory.wf cap m) {base : Nat}
    (hb : base + vs.length ≤ cap) : Memory.wf cap (Memory.writeList m base vs) := by
  induction vs generalizing m base with
  | nil => exact h
  | cons v rest ih =>
    simp only [List.length_cons] at hb
    exact ih (Memory.wf_write h (by omega) v) (by omega)

theorem Memory.mem_ofList {vs : List (BitVec w)} {base : Nat} {c : Nat × BitVec w} (h : c ∈ Memory.ofList base vs) :
    base ≤ c.1 ∧ c.1 < base + vs.length ∧ c.2 ≠ 0 := by
  induction vs generalizing base with
  | nil => simp [Memory.ofList] at h
  | cons v rest ih =>
    unfold Memory.ofList at h
    split at h
    · have := ih h; simp only [List.length_cons]; exact ⟨by omega, by omega, this.2.2⟩
    · next hv =>
      rcases List.mem_cons.mp h with rfl | h
      · exact ⟨Nat.le_refl _, by simp, hv⟩
      · have := ih h; simp only [List.length_cons]; exact ⟨by omega, by omega, this.2.2⟩

theorem Memory.pairwise_ofList (vs : List (BitVec w)) (base : Nat) :
    (Memory.ofList base vs).Pairwise fun a b => a.1 < b.1 := by
  induction vs generalizing base with
  | nil => simp [Memory.ofList]
  | cons v rest ih =>
    unfold Memory.ofList
    split
    · exact ih _
    · refine List.pairwise_cons.mpr ⟨fun c hc => ?_, ih _⟩
      have := Memory.mem_ofList hc
      show base < c.1; omega

theorem Memory.wf_ofList {cap base : Nat} {vs : List (BitVec w)} (h : base + vs.length ≤ cap) :
    Memory.wf cap (Memory.ofList base vs) :=
  ⟨Memory.pairwise_ofList vs base, fun _ hc =>
    ⟨Nat.lt_of_lt_of_le (Memory.mem_ofList hc).2.1 h, (Memory.mem_ofList hc).2.2⟩⟩

end Sys2Proof.Machine
end

