-- ==== Sys2Proof/Laws/State.lean ====
section
/-!
SUPPORT. One lemma per field per named update of the state, so that no proof unfolds a record update; and the same for
the bits of `STATUS`.
-/
namespace Sys2Proof.Machine

/-! ### The bits of `STATUS` -/

@[simp] theorem Status.issued_busy (t : Status) : t.issued.busy = true := rfl
@[simp] theorem Status.issued_done (t : Status) : t.issued.done = false := rfl
@[simp] theorem Status.issued_error (t : Status) : t.issued.error = false := rfl
@[simp] theorem Status.issued_haz (t : Status) : t.issued.haz = t.haz := rfl
@[simp] theorem Status.issued_badacc (t : Status) : t.issued.badacc = t.badacc := rfl

@[simp] theorem Status.completed_busy (t : Status) : t.completed.busy = false := rfl
@[simp] theorem Status.completed_done (t : Status) : t.completed.done = true := rfl
@[simp] theorem Status.completed_error (t : Status) : t.completed.error = t.error := rfl
@[simp] theorem Status.completed_haz (t : Status) : t.completed.haz = t.haz := rfl
@[simp] theorem Status.completed_badacc (t : Status) : t.completed.badacc = t.badacc := rfl

@[simp] theorem Status.failed_busy (t : Status) : t.failed.busy = t.busy := rfl
@[simp] theorem Status.failed_done (t : Status) : t.failed.done = t.done := rfl
@[simp] theorem Status.failed_error (t : Status) : t.failed.error = true := rfl
@[simp] theorem Status.failed_haz (t : Status) : t.failed.haz = t.haz := rfl
@[simp] theorem Status.failed_badacc (t : Status) : t.failed.badacc = t.badacc := rfl

@[simp] theorem Status.withHaz_busy (t : Status) : t.withHaz.busy = t.busy := rfl
@[simp] theorem Status.withHaz_done (t : Status) : t.withHaz.done = t.done := rfl
@[simp] theorem Status.withHaz_error (t : Status) : t.withHaz.error = t.error := rfl
@[simp] theorem Status.withHaz_haz (t : Status) : t.withHaz.haz = true := rfl
@[simp] theorem Status.withHaz_badacc (t : Status) : t.withHaz.badacc = t.badacc := rfl

@[simp] theorem Status.withBadacc_busy (t : Status) : t.withBadacc.busy = t.busy := rfl
@[simp] theorem Status.withBadacc_done (t : Status) : t.withBadacc.done = t.done := rfl
@[simp] theorem Status.withBadacc_error (t : Status) : t.withBadacc.error = t.error := rfl
@[simp] theorem Status.withBadacc_haz (t : Status) : t.withBadacc.haz = t.haz := rfl
@[simp] theorem Status.withBadacc_badacc (t : Status) : t.withBadacc.badacc = true := rfl

/-! ### `clearResults` -/

@[simp] theorem clearResults_params (s : State) : (clearResults s).params = s.params := rfl
@[simp] theorem clearResults_cmd (s : State) : (clearResults s).cmd = s.cmd := rfl
@[simp] theorem clearResults_status (s : State) : (clearResults s).status = s.status := rfl
@[simp] theorem clearResults_err (s : State) : (clearResults s).err = s.err := rfl
@[simp] theorem clearResults_info (s : State) : (clearResults s).info = s.info := rfl
@[simp] theorem clearResults_r0 (s : State) : (clearResults s).r0 = 0 := rfl
@[simp] theorem clearResults_olen (s : State) : (clearResults s).olen = 0 := rfl
@[simp] theorem clearResults_len (s : State) : (clearResults s).len = s.len := rfl
@[simp] theorem clearResults_plen (s : State) : (clearResults s).plen = s.plen := rfl
@[simp] theorem clearResults_wlen (s : State) : (clearResults s).wlen = s.wlen := rfl
@[simp] theorem clearResults_id (s : State) : (clearResults s).id = s.id := rfl
@[simp] theorem clearResults_extFlag (s : State) : (clearResults s).extFlag = s.extFlag := rfl
@[simp] theorem clearResults_itexp (s : State) : (clearResults s).itexp = s.itexp := rfl
@[simp] theorem clearResults_gi (s : State) : (clearResults s).gi = s.gi := rfl
@[simp] theorem clearResults_gt (s : State) : (clearResults s).gt = s.gt := rfl
@[simp] theorem clearResults_gc (s : State) : (clearResults s).gc = s.gc := rfl
@[simp] theorem clearResults_mi (s : State) : (clearResults s).mi = s.mi := rfl
@[simp] theorem clearResults_mt (s : State) : (clearResults s).mt = s.mt := rfl
@[simp] theorem clearResults_svalid (s : State) : (clearResults s).svalid = s.svalid := rfl
@[simp] theorem clearResults_sx (s : State) : (clearResults s).sx = s.sx := rfl
@[simp] theorem clearResults_slen (s : State) : (clearResults s).slen = s.slen := rfl
@[simp] theorem clearResults_sdata (s : State) : (clearResults s).sdata = s.sdata := rfl
@[simp] theorem clearResults_sec (s : State) : (clearResults s).sec = s.sec := rfl
@[simp] theorem clearResults_pass (s : State) : (clearResults s).pass = s.pass := rfl
@[simp] theorem clearResults_words (s : State) : (clearResults s).words = s.words := rfl
@[simp] theorem clearResults_out (s : State) : (clearResults s).out = [] := rfl
@[simp] theorem clearResults_turns (s : State) : (clearResults s).turns = s.turns := rfl
@[simp] theorem clearResults_rdata (s : State) : (clearResults s).rdata = s.rdata := rfl
@[simp] theorem clearResults_drawSerial (s : State) : (clearResults s).drawSerial = s.drawSerial := rfl

/-! ### `finishCommand` -/

@[simp] theorem finishCommand_params (s : State) : (finishCommand s).params = s.params := rfl
@[simp] theorem finishCommand_cmd (s : State) : (finishCommand s).cmd = s.cmd := rfl
@[simp] theorem finishCommand_status (s : State) : (finishCommand s).status = s.status.completed := rfl
@[simp] theorem finishCommand_err (s : State) : (finishCommand s).err = s.err := rfl
@[simp] theorem finishCommand_info (s : State) : (finishCommand s).info = s.info := rfl
@[simp] theorem finishCommand_r0 (s : State) : (finishCommand s).r0 = s.r0 := rfl
@[simp] theorem finishCommand_olen (s : State) : (finishCommand s).olen = s.olen := rfl
@[simp] theorem finishCommand_len (s : State) : (finishCommand s).len = s.len := rfl
@[simp] theorem finishCommand_plen (s : State) : (finishCommand s).plen = s.plen := rfl
@[simp] theorem finishCommand_wlen (s : State) : (finishCommand s).wlen = s.wlen := rfl
@[simp] theorem finishCommand_id (s : State) : (finishCommand s).id = s.id := rfl
@[simp] theorem finishCommand_extFlag (s : State) : (finishCommand s).extFlag = s.extFlag := rfl
@[simp] theorem finishCommand_itexp (s : State) : (finishCommand s).itexp = s.itexp := rfl
@[simp] theorem finishCommand_gi (s : State) : (finishCommand s).gi = s.gi := rfl
@[simp] theorem finishCommand_gt (s : State) : (finishCommand s).gt = s.gt := rfl
@[simp] theorem finishCommand_gc (s : State) : (finishCommand s).gc = s.gc := rfl
@[simp] theorem finishCommand_mi (s : State) : (finishCommand s).mi = s.mi := rfl
@[simp] theorem finishCommand_mt (s : State) : (finishCommand s).mt = s.mt := rfl
@[simp] theorem finishCommand_svalid (s : State) : (finishCommand s).svalid = s.svalid := rfl
@[simp] theorem finishCommand_sx (s : State) : (finishCommand s).sx = s.sx := rfl
@[simp] theorem finishCommand_slen (s : State) : (finishCommand s).slen = s.slen := rfl
@[simp] theorem finishCommand_sdata (s : State) : (finishCommand s).sdata = s.sdata := rfl
@[simp] theorem finishCommand_sec (s : State) : (finishCommand s).sec = s.sec := rfl
@[simp] theorem finishCommand_pass (s : State) : (finishCommand s).pass = s.pass := rfl
@[simp] theorem finishCommand_words (s : State) : (finishCommand s).words = s.words := rfl
@[simp] theorem finishCommand_out (s : State) : (finishCommand s).out = s.out := rfl
@[simp] theorem finishCommand_turns (s : State) : (finishCommand s).turns = s.turns := rfl
@[simp] theorem finishCommand_rdata (s : State) : (finishCommand s).rdata = s.rdata := rfl
@[simp] theorem finishCommand_drawSerial (s : State) : (finishCommand s).drawSerial = s.drawSerial := rfl

/-! ### `reportError` -/

@[simp] theorem reportError_params (r : Raise) (s : State) : (reportError r s).params = s.params := rfl
@[simp] theorem reportError_cmd (r : Raise) (s : State) : (reportError r s).cmd = s.cmd := rfl
@[simp] theorem reportError_status (r : Raise) (s : State) : (reportError r s).status =
    s.status.failed.completed := rfl
@[simp] theorem reportError_err (r : Raise) (s : State) : (reportError r s).err = r.err.code := rfl
@[simp] theorem reportError_info (r : Raise) (s : State) : (reportError r s).info = r.info := rfl
@[simp] theorem reportError_r0 (r : Raise) (s : State) : (reportError r s).r0 = 0 := rfl
@[simp] theorem reportError_olen (r : Raise) (s : State) : (reportError r s).olen = 0 := rfl
@[simp] theorem reportError_len (r : Raise) (s : State) : (reportError r s).len = s.len := rfl
@[simp] theorem reportError_plen (r : Raise) (s : State) : (reportError r s).plen = s.plen := rfl
@[simp] theorem reportError_wlen (r : Raise) (s : State) : (reportError r s).wlen = s.wlen := rfl
@[simp] theorem reportError_id (r : Raise) (s : State) : (reportError r s).id = s.id := rfl
@[simp] theorem reportError_extFlag (r : Raise) (s : State) : (reportError r s).extFlag = s.extFlag := rfl
@[simp] theorem reportError_itexp (r : Raise) (s : State) : (reportError r s).itexp = s.itexp := rfl
@[simp] theorem reportError_gi (r : Raise) (s : State) : (reportError r s).gi = s.gi := rfl
@[simp] theorem reportError_gt (r : Raise) (s : State) : (reportError r s).gt = s.gt := rfl
@[simp] theorem reportError_gc (r : Raise) (s : State) : (reportError r s).gc = s.gc := rfl
@[simp] theorem reportError_mi (r : Raise) (s : State) : (reportError r s).mi = s.mi := rfl
@[simp] theorem reportError_mt (r : Raise) (s : State) : (reportError r s).mt = s.mt := rfl
@[simp] theorem reportError_svalid (r : Raise) (s : State) : (reportError r s).svalid = s.svalid := rfl
@[simp] theorem reportError_sx (r : Raise) (s : State) : (reportError r s).sx = s.sx := rfl
@[simp] theorem reportError_slen (r : Raise) (s : State) : (reportError r s).slen = s.slen := rfl
@[simp] theorem reportError_sdata (r : Raise) (s : State) : (reportError r s).sdata = s.sdata := rfl
@[simp] theorem reportError_sec (r : Raise) (s : State) : (reportError r s).sec = s.sec := rfl
@[simp] theorem reportError_pass (r : Raise) (s : State) : (reportError r s).pass = s.pass := rfl
@[simp] theorem reportError_words (r : Raise) (s : State) : (reportError r s).words = s.words := rfl
@[simp] theorem reportError_out (r : Raise) (s : State) : (reportError r s).out = [] := rfl
@[simp] theorem reportError_turns (r : Raise) (s : State) : (reportError r s).turns = s.turns := rfl
@[simp] theorem reportError_rdata (r : Raise) (s : State) : (reportError r s).rdata = s.rdata := rfl
@[simp] theorem reportError_drawSerial (r : Raise) (s : State) : (reportError r s).drawSerial = s.drawSerial := rfl

/-! ### `issueCommand` -/

@[simp] theorem issueCommand_params (c : Word) (s : State) : (issueCommand c s).params = s.params := rfl
@[simp] theorem issueCommand_cmd (c : Word) (s : State) : (issueCommand c s).cmd = c := rfl
@[simp] theorem issueCommand_status (c : Word) (s : State) : (issueCommand c s).status = s.status.issued := rfl
@[simp] theorem issueCommand_err (c : Word) (s : State) : (issueCommand c s).err = 0 := rfl
@[simp] theorem issueCommand_info (c : Word) (s : State) : (issueCommand c s).info = 0 := rfl
@[simp] theorem issueCommand_r0 (c : Word) (s : State) : (issueCommand c s).r0 = s.r0 := rfl
@[simp] theorem issueCommand_olen (c : Word) (s : State) : (issueCommand c s).olen = s.olen := rfl
@[simp] theorem issueCommand_len (c : Word) (s : State) : (issueCommand c s).len = s.len := rfl
@[simp] theorem issueCommand_plen (c : Word) (s : State) : (issueCommand c s).plen = s.plen := rfl
@[simp] theorem issueCommand_wlen (c : Word) (s : State) : (issueCommand c s).wlen = s.wlen := rfl
@[simp] theorem issueCommand_id (c : Word) (s : State) : (issueCommand c s).id = s.id := rfl
@[simp] theorem issueCommand_extFlag (c : Word) (s : State) : (issueCommand c s).extFlag = s.extFlag := rfl
@[simp] theorem issueCommand_itexp (c : Word) (s : State) : (issueCommand c s).itexp = s.itexp := rfl
@[simp] theorem issueCommand_gi (c : Word) (s : State) : (issueCommand c s).gi = s.gi := rfl
@[simp] theorem issueCommand_gt (c : Word) (s : State) : (issueCommand c s).gt = s.gt := rfl
@[simp] theorem issueCommand_gc (c : Word) (s : State) : (issueCommand c s).gc = s.gc := rfl
@[simp] theorem issueCommand_mi (c : Word) (s : State) : (issueCommand c s).mi = s.mi := rfl
@[simp] theorem issueCommand_mt (c : Word) (s : State) : (issueCommand c s).mt = s.mt := rfl
@[simp] theorem issueCommand_svalid (c : Word) (s : State) : (issueCommand c s).svalid = s.svalid := rfl
@[simp] theorem issueCommand_sx (c : Word) (s : State) : (issueCommand c s).sx = s.sx := rfl
@[simp] theorem issueCommand_slen (c : Word) (s : State) : (issueCommand c s).slen = s.slen := rfl
@[simp] theorem issueCommand_sdata (c : Word) (s : State) : (issueCommand c s).sdata = s.sdata := rfl
@[simp] theorem issueCommand_sec (c : Word) (s : State) : (issueCommand c s).sec = s.sec := rfl
@[simp] theorem issueCommand_pass (c : Word) (s : State) : (issueCommand c s).pass = s.pass := rfl
@[simp] theorem issueCommand_words (c : Word) (s : State) : (issueCommand c s).words = s.words := rfl
@[simp] theorem issueCommand_out (c : Word) (s : State) : (issueCommand c s).out = s.out := rfl
@[simp] theorem issueCommand_turns (c : Word) (s : State) : (issueCommand c s).turns = s.turns := rfl
@[simp] theorem issueCommand_rdata (c : Word) (s : State) : (issueCommand c s).rdata = s.rdata := rfl
@[simp] theorem issueCommand_drawSerial (c : Word) (s : State) : (issueCommand c s).drawSerial = s.drawSerial := rfl

/-! ### `writeR0` -/

@[simp] theorem writeR0_params (v : Word) (s : State) : (writeR0 v s).params = s.params := rfl
@[simp] theorem writeR0_cmd (v : Word) (s : State) : (writeR0 v s).cmd = s.cmd := rfl
@[simp] theorem writeR0_status (v : Word) (s : State) : (writeR0 v s).status = s.status := rfl
@[simp] theorem writeR0_err (v : Word) (s : State) : (writeR0 v s).err = s.err := rfl
@[simp] theorem writeR0_info (v : Word) (s : State) : (writeR0 v s).info = s.info := rfl
@[simp] theorem writeR0_r0 (v : Word) (s : State) : (writeR0 v s).r0 = v := rfl
@[simp] theorem writeR0_olen (v : Word) (s : State) : (writeR0 v s).olen = s.olen := rfl
@[simp] theorem writeR0_len (v : Word) (s : State) : (writeR0 v s).len = s.len := rfl
@[simp] theorem writeR0_plen (v : Word) (s : State) : (writeR0 v s).plen = s.plen := rfl
@[simp] theorem writeR0_wlen (v : Word) (s : State) : (writeR0 v s).wlen = s.wlen := rfl
@[simp] theorem writeR0_id (v : Word) (s : State) : (writeR0 v s).id = s.id := rfl
@[simp] theorem writeR0_extFlag (v : Word) (s : State) : (writeR0 v s).extFlag = s.extFlag := rfl
@[simp] theorem writeR0_itexp (v : Word) (s : State) : (writeR0 v s).itexp = s.itexp := rfl
@[simp] theorem writeR0_gi (v : Word) (s : State) : (writeR0 v s).gi = s.gi := rfl
@[simp] theorem writeR0_gt (v : Word) (s : State) : (writeR0 v s).gt = s.gt := rfl
@[simp] theorem writeR0_gc (v : Word) (s : State) : (writeR0 v s).gc = s.gc := rfl
@[simp] theorem writeR0_mi (v : Word) (s : State) : (writeR0 v s).mi = s.mi := rfl
@[simp] theorem writeR0_mt (v : Word) (s : State) : (writeR0 v s).mt = s.mt := rfl
@[simp] theorem writeR0_svalid (v : Word) (s : State) : (writeR0 v s).svalid = s.svalid := rfl
@[simp] theorem writeR0_sx (v : Word) (s : State) : (writeR0 v s).sx = s.sx := rfl
@[simp] theorem writeR0_slen (v : Word) (s : State) : (writeR0 v s).slen = s.slen := rfl
@[simp] theorem writeR0_sdata (v : Word) (s : State) : (writeR0 v s).sdata = s.sdata := rfl
@[simp] theorem writeR0_sec (v : Word) (s : State) : (writeR0 v s).sec = s.sec := rfl
@[simp] theorem writeR0_pass (v : Word) (s : State) : (writeR0 v s).pass = s.pass := rfl
@[simp] theorem writeR0_words (v : Word) (s : State) : (writeR0 v s).words = s.words := rfl
@[simp] theorem writeR0_out (v : Word) (s : State) : (writeR0 v s).out = s.out := rfl
@[simp] theorem writeR0_turns (v : Word) (s : State) : (writeR0 v s).turns = s.turns := rfl
@[simp] theorem writeR0_rdata (v : Word) (s : State) : (writeR0 v s).rdata = s.rdata := rfl
@[simp] theorem writeR0_drawSerial (v : Word) (s : State) : (writeR0 v s).drawSerial = s.drawSerial := rfl

/-! ### `writeOut` -/

@[simp] theorem writeOut_params (bs : List Byte) (s : State) : (writeOut bs s).params = s.params := rfl
@[simp] theorem writeOut_cmd (bs : List Byte) (s : State) : (writeOut bs s).cmd = s.cmd := rfl
@[simp] theorem writeOut_status (bs : List Byte) (s : State) : (writeOut bs s).status = s.status := rfl
@[simp] theorem writeOut_err (bs : List Byte) (s : State) : (writeOut bs s).err = s.err := rfl
@[simp] theorem writeOut_info (bs : List Byte) (s : State) : (writeOut bs s).info = s.info := rfl
@[simp] theorem writeOut_r0 (bs : List Byte) (s : State) : (writeOut bs s).r0 = s.r0 := rfl
@[simp] theorem writeOut_olen (bs : List Byte) (s : State) : (writeOut bs s).olen = BitVec.ofNat 16 bs.length := rfl
@[simp] theorem writeOut_len (bs : List Byte) (s : State) : (writeOut bs s).len = s.len := rfl
@[simp] theorem writeOut_plen (bs : List Byte) (s : State) : (writeOut bs s).plen = s.plen := rfl
@[simp] theorem writeOut_wlen (bs : List Byte) (s : State) : (writeOut bs s).wlen = s.wlen := rfl
@[simp] theorem writeOut_id (bs : List Byte) (s : State) : (writeOut bs s).id = s.id := rfl
@[simp] theorem writeOut_extFlag (bs : List Byte) (s : State) : (writeOut bs s).extFlag = s.extFlag := rfl
@[simp] theorem writeOut_itexp (bs : List Byte) (s : State) : (writeOut bs s).itexp = s.itexp := rfl
@[simp] theorem writeOut_gi (bs : List Byte) (s : State) : (writeOut bs s).gi = s.gi := rfl
@[simp] theorem writeOut_gt (bs : List Byte) (s : State) : (writeOut bs s).gt = s.gt := rfl
@[simp] theorem writeOut_gc (bs : List Byte) (s : State) : (writeOut bs s).gc = s.gc := rfl
@[simp] theorem writeOut_mi (bs : List Byte) (s : State) : (writeOut bs s).mi = s.mi := rfl
@[simp] theorem writeOut_mt (bs : List Byte) (s : State) : (writeOut bs s).mt = s.mt := rfl
@[simp] theorem writeOut_svalid (bs : List Byte) (s : State) : (writeOut bs s).svalid = s.svalid := rfl
@[simp] theorem writeOut_sx (bs : List Byte) (s : State) : (writeOut bs s).sx = s.sx := rfl
@[simp] theorem writeOut_slen (bs : List Byte) (s : State) : (writeOut bs s).slen = s.slen := rfl
@[simp] theorem writeOut_sdata (bs : List Byte) (s : State) : (writeOut bs s).sdata = s.sdata := rfl
@[simp] theorem writeOut_sec (bs : List Byte) (s : State) : (writeOut bs s).sec = s.sec := rfl
@[simp] theorem writeOut_pass (bs : List Byte) (s : State) : (writeOut bs s).pass = s.pass := rfl
@[simp] theorem writeOut_words (bs : List Byte) (s : State) : (writeOut bs s).words = s.words := rfl
@[simp] theorem writeOut_out (bs : List Byte) (s : State) : (writeOut bs s).out = Memory.ofList 0 bs := rfl
@[simp] theorem writeOut_turns (bs : List Byte) (s : State) : (writeOut bs s).turns = s.turns := rfl
@[simp] theorem writeOut_rdata (bs : List Byte) (s : State) : (writeOut bs s).rdata = s.rdata := rfl
@[simp] theorem writeOut_drawSerial (bs : List Byte) (s : State) : (writeOut bs s).drawSerial = s.drawSerial := rfl

/-! ### `writeWords` -/

@[simp] theorem writeWords_params (base : Nat) (ws : List MnWord) (s : State) : (writeWords base ws s).params =
    s.params := rfl
@[simp] theorem writeWords_cmd (base : Nat) (ws : List MnWord) (s : State) : (writeWords base ws s).cmd = s.cmd := rfl
@[simp] theorem writeWords_status (base : Nat) (ws : List MnWord) (s : State) : (writeWords base ws s).status =
    s.status := rfl
@[simp] theorem writeWords_err (base : Nat) (ws : List MnWord) (s : State) : (writeWords base ws s).err = s.err := rfl
@[simp] theorem writeWords_info (base : Nat) (ws : List MnWord) (s : State) : (writeWords base ws s).info =
    s.info := rfl
@[simp] theorem writeWords_r0 (base : Nat) (ws : List MnWord) (s : State) : (writeWords base ws s).r0 = s.r0 := rfl
@[simp] theorem writeWords_olen (base : Nat) (ws : List MnWord) (s : State) : (writeWords base ws s).olen =
    s.olen := rfl
@[simp] theorem writeWords_len (base : Nat) (ws : List MnWord) (s : State) : (writeWords base ws s).len = s.len := rfl
@[simp] theorem writeWords_plen (base : Nat) (ws : List MnWord) (s : State) : (writeWords base ws s).plen =
    s.plen := rfl
@[simp] theorem writeWords_wlen (base : Nat) (ws : List MnWord) (s : State) : (writeWords base ws s).wlen =
    BitVec.ofNat 16 (base + ws.length) := rfl
@[simp] theorem writeWords_id (base : Nat) (ws : List MnWord) (s : State) : (writeWords base ws s).id = s.id := rfl
@[simp] theorem writeWords_extFlag (base : Nat) (ws : List MnWord) (s : State) : (writeWords base ws s).extFlag =
    s.extFlag := rfl
@[simp] theorem writeWords_itexp (base : Nat) (ws : List MnWord) (s : State) : (writeWords base ws s).itexp =
    s.itexp := rfl
@[simp] theorem writeWords_gi (base : Nat) (ws : List MnWord) (s : State) : (writeWords base ws s).gi = s.gi := rfl
@[simp] theorem writeWords_gt (base : Nat) (ws : List MnWord) (s : State) : (writeWords base ws s).gt = s.gt := rfl
@[simp] theorem writeWords_gc (base : Nat) (ws : List MnWord) (s : State) : (writeWords base ws s).gc = s.gc := rfl
@[simp] theorem writeWords_mi (base : Nat) (ws : List MnWord) (s : State) : (writeWords base ws s).mi = s.mi := rfl
@[simp] theorem writeWords_mt (base : Nat) (ws : List MnWord) (s : State) : (writeWords base ws s).mt = s.mt := rfl
@[simp] theorem writeWords_svalid (base : Nat) (ws : List MnWord) (s : State) : (writeWords base ws s).svalid =
    s.svalid := rfl
@[simp] theorem writeWords_sx (base : Nat) (ws : List MnWord) (s : State) : (writeWords base ws s).sx = s.sx := rfl
@[simp] theorem writeWords_slen (base : Nat) (ws : List MnWord) (s : State) : (writeWords base ws s).slen =
    s.slen := rfl
@[simp] theorem writeWords_sdata (base : Nat) (ws : List MnWord) (s : State) : (writeWords base ws s).sdata =
    s.sdata := rfl
@[simp] theorem writeWords_sec (base : Nat) (ws : List MnWord) (s : State) : (writeWords base ws s).sec = s.sec := rfl
@[simp] theorem writeWords_pass (base : Nat) (ws : List MnWord) (s : State) : (writeWords base ws s).pass =
    s.pass := rfl
@[simp] theorem writeWords_words (base : Nat) (ws : List MnWord) (s : State) : (writeWords base ws s).words =
    Memory.writeList s.words base ws := rfl
@[simp] theorem writeWords_out (base : Nat) (ws : List MnWord) (s : State) : (writeWords base ws s).out = s.out := rfl
@[simp] theorem writeWords_turns (base : Nat) (ws : List MnWord) (s : State) : (writeWords base ws s).turns =
    s.turns := rfl
@[simp] theorem writeWords_rdata (base : Nat) (ws : List MnWord) (s : State) : (writeWords base ws s).rdata =
    s.rdata := rfl
@[simp] theorem writeWords_drawSerial (base : Nat) (ws : List MnWord) (s : State) : (writeWords base ws s).drawSerial =
    s.drawSerial := rfl

/-! ### `writeHeaderRegs` -/

@[simp] theorem writeHeaderRegs_params (h : Header) (s : State) : (writeHeaderRegs h s).params = s.params := rfl
@[simp] theorem writeHeaderRegs_cmd (h : Header) (s : State) : (writeHeaderRegs h s).cmd = s.cmd := rfl
@[simp] theorem writeHeaderRegs_status (h : Header) (s : State) : (writeHeaderRegs h s).status = s.status := rfl
@[simp] theorem writeHeaderRegs_err (h : Header) (s : State) : (writeHeaderRegs h s).err = s.err := rfl
@[simp] theorem writeHeaderRegs_info (h : Header) (s : State) : (writeHeaderRegs h s).info = s.info := rfl
@[simp] theorem writeHeaderRegs_r0 (h : Header) (s : State) : (writeHeaderRegs h s).r0 = s.r0 := rfl
@[simp] theorem writeHeaderRegs_olen (h : Header) (s : State) : (writeHeaderRegs h s).olen = s.olen := rfl
@[simp] theorem writeHeaderRegs_len (h : Header) (s : State) : (writeHeaderRegs h s).len = s.len := rfl
@[simp] theorem writeHeaderRegs_plen (h : Header) (s : State) : (writeHeaderRegs h s).plen = s.plen := rfl
@[simp] theorem writeHeaderRegs_wlen (h : Header) (s : State) : (writeHeaderRegs h s).wlen = s.wlen := rfl
@[simp] theorem writeHeaderRegs_id (h : Header) (s : State) : (writeHeaderRegs h s).id = h.id := rfl
@[simp] theorem writeHeaderRegs_extFlag (h : Header) (s : State) : (writeHeaderRegs h s).extFlag = h.extFlag := rfl
@[simp] theorem writeHeaderRegs_itexp (h : Header) (s : State) : (writeHeaderRegs h s).itexp = h.itexp := rfl
@[simp] theorem writeHeaderRegs_gi (h : Header) (s : State) : (writeHeaderRegs h s).gi = h.gi := rfl
@[simp] theorem writeHeaderRegs_gt (h : Header) (s : State) : (writeHeaderRegs h s).gt = h.gt := rfl
@[simp] theorem writeHeaderRegs_gc (h : Header) (s : State) : (writeHeaderRegs h s).gc = h.gc := rfl
@[simp] theorem writeHeaderRegs_mi (h : Header) (s : State) : (writeHeaderRegs h s).mi = h.mi := rfl
@[simp] theorem writeHeaderRegs_mt (h : Header) (s : State) : (writeHeaderRegs h s).mt = h.mt := rfl
@[simp] theorem writeHeaderRegs_svalid (h : Header) (s : State) : (writeHeaderRegs h s).svalid = s.svalid := rfl
@[simp] theorem writeHeaderRegs_sx (h : Header) (s : State) : (writeHeaderRegs h s).sx = s.sx := rfl
@[simp] theorem writeHeaderRegs_slen (h : Header) (s : State) : (writeHeaderRegs h s).slen = s.slen := rfl
@[simp] theorem writeHeaderRegs_sdata (h : Header) (s : State) : (writeHeaderRegs h s).sdata = s.sdata := rfl
@[simp] theorem writeHeaderRegs_sec (h : Header) (s : State) : (writeHeaderRegs h s).sec = s.sec := rfl
@[simp] theorem writeHeaderRegs_pass (h : Header) (s : State) : (writeHeaderRegs h s).pass = s.pass := rfl
@[simp] theorem writeHeaderRegs_words (h : Header) (s : State) : (writeHeaderRegs h s).words = s.words := rfl
@[simp] theorem writeHeaderRegs_out (h : Header) (s : State) : (writeHeaderRegs h s).out = s.out := rfl
@[simp] theorem writeHeaderRegs_turns (h : Header) (s : State) : (writeHeaderRegs h s).turns = s.turns := rfl
@[simp] theorem writeHeaderRegs_rdata (h : Header) (s : State) : (writeHeaderRegs h s).rdata = s.rdata := rfl
@[simp] theorem writeHeaderRegs_drawSerial (h : Header) (s : State) : (writeHeaderRegs h s).drawSerial =
    s.drawSerial := rfl

/-! ### `writeShareTable` -/

@[simp] theorem writeShareTable_params (shares : List (List Byte)) (n : Nat) (s : State) : (writeShareTable shares n s).params =
    s.params := rfl
@[simp] theorem writeShareTable_cmd (shares : List (List Byte)) (n : Nat) (s : State) : (writeShareTable shares n s).cmd =
    s.cmd := rfl
@[simp] theorem writeShareTable_status (shares : List (List Byte)) (n : Nat) (s : State) : (writeShareTable shares n s).status =
    s.status := rfl
@[simp] theorem writeShareTable_err (shares : List (List Byte)) (n : Nat) (s : State) : (writeShareTable shares n s).err =
    s.err := rfl
@[simp] theorem writeShareTable_info (shares : List (List Byte)) (n : Nat) (s : State) : (writeShareTable shares n s).info =
    s.info := rfl
@[simp] theorem writeShareTable_r0 (shares : List (List Byte)) (n : Nat) (s : State) : (writeShareTable shares n s).r0 =
    s.r0 := rfl
@[simp] theorem writeShareTable_olen (shares : List (List Byte)) (n : Nat) (s : State) : (writeShareTable shares n s).olen =
    s.olen := rfl
@[simp] theorem writeShareTable_len (shares : List (List Byte)) (n : Nat) (s : State) : (writeShareTable shares n s).len =
    s.len := rfl
@[simp] theorem writeShareTable_plen (shares : List (List Byte)) (n : Nat) (s : State) : (writeShareTable shares n s).plen =
    s.plen := rfl
@[simp] theorem writeShareTable_wlen (shares : List (List Byte)) (n : Nat) (s : State) : (writeShareTable shares n s).wlen =
    s.wlen := rfl
@[simp] theorem writeShareTable_id (shares : List (List Byte)) (n : Nat) (s : State) : (writeShareTable shares n s).id =
    s.id := rfl
@[simp] theorem writeShareTable_extFlag (shares : List (List Byte)) (n : Nat) (s : State) : (writeShareTable shares n s).extFlag =
    s.extFlag := rfl
@[simp] theorem writeShareTable_itexp (shares : List (List Byte)) (n : Nat) (s : State) : (writeShareTable shares n s).itexp =
    s.itexp := rfl
@[simp] theorem writeShareTable_gi (shares : List (List Byte)) (n : Nat) (s : State) : (writeShareTable shares n s).gi =
    s.gi := rfl
@[simp] theorem writeShareTable_gt (shares : List (List Byte)) (n : Nat) (s : State) : (writeShareTable shares n s).gt =
    s.gt := rfl
@[simp] theorem writeShareTable_gc (shares : List (List Byte)) (n : Nat) (s : State) : (writeShareTable shares n s).gc =
    s.gc := rfl
@[simp] theorem writeShareTable_mi (shares : List (List Byte)) (n : Nat) (s : State) : (writeShareTable shares n s).mi =
    s.mi := rfl
@[simp] theorem writeShareTable_mt (shares : List (List Byte)) (n : Nat) (s : State) : (writeShareTable shares n s).mt =
    s.mt := rfl
@[simp] theorem writeShareTable_svalid (shares : List (List Byte)) (n : Nat) (s : State) : (writeShareTable shares n s).svalid =
    BitVec.ofNat 16 (2 ^ shares.length - 1) := rfl
@[simp] theorem writeShareTable_sx (shares : List (List Byte)) (n : Nat) (s : State) : (writeShareTable shares n s).sx =
    Memory.ofList 0 ((List.range shares.length).map (BitVec.ofNat 8)) := rfl
@[simp] theorem writeShareTable_slen (shares : List (List Byte)) (n : Nat) (s : State) : (writeShareTable shares n s).slen =
    Memory.ofList 0 (List.replicate shares.length (BitVec.ofNat 16 n)) := rfl
@[simp] theorem writeShareTable_sdata (shares : List (List Byte)) (n : Nat) (s : State) : (writeShareTable shares n s).sdata =
    (List.range shares.length).flatMap fun i => Memory.ofList (slotKey i 0) (shares.getD i []) := rfl
@[simp] theorem writeShareTable_sec (shares : List (List Byte)) (n : Nat) (s : State) : (writeShareTable shares n s).sec =
    s.sec := rfl
@[simp] theorem writeShareTable_pass (shares : List (List Byte)) (n : Nat) (s : State) : (writeShareTable shares n s).pass =
    s.pass := rfl
@[simp] theorem writeShareTable_words (shares : List (List Byte)) (n : Nat) (s : State) : (writeShareTable shares n s).words =
    s.words := rfl
@[simp] theorem writeShareTable_out (shares : List (List Byte)) (n : Nat) (s : State) : (writeShareTable shares n s).out =
    s.out := rfl
@[simp] theorem writeShareTable_turns (shares : List (List Byte)) (n : Nat) (s : State) : (writeShareTable shares n s).turns =
    s.turns := rfl
@[simp] theorem writeShareTable_rdata (shares : List (List Byte)) (n : Nat) (s : State) : (writeShareTable shares n s).rdata =
    s.rdata := rfl
@[simp] theorem writeShareTable_drawSerial (shares : List (List Byte)) (n : Nat) (s : State) : (writeShareTable shares n s).drawSerial =
    s.drawSerial := rfl

/-! ### `resetBlock` -/

@[simp] theorem resetBlock_params (s : State) : (resetBlock s).params = s.params := rfl
@[simp] theorem resetBlock_cmd (s : State) : (resetBlock s).cmd = State.reset.cmd := rfl
@[simp] theorem resetBlock_status (s : State) : (resetBlock s).status = State.reset.status := rfl
@[simp] theorem resetBlock_err (s : State) : (resetBlock s).err = State.reset.err := rfl
@[simp] theorem resetBlock_info (s : State) : (resetBlock s).info = State.reset.info := rfl
@[simp] theorem resetBlock_r0 (s : State) : (resetBlock s).r0 = State.reset.r0 := rfl
@[simp] theorem resetBlock_olen (s : State) : (resetBlock s).olen = State.reset.olen := rfl
@[simp] theorem resetBlock_len (s : State) : (resetBlock s).len = State.reset.len := rfl
@[simp] theorem resetBlock_plen (s : State) : (resetBlock s).plen = State.reset.plen := rfl
@[simp] theorem resetBlock_wlen (s : State) : (resetBlock s).wlen = State.reset.wlen := rfl
@[simp] theorem resetBlock_id (s : State) : (resetBlock s).id = State.reset.id := rfl
@[simp] theorem resetBlock_extFlag (s : State) : (resetBlock s).extFlag = State.reset.extFlag := rfl
@[simp] theorem resetBlock_itexp (s : State) : (resetBlock s).itexp = State.reset.itexp := rfl
@[simp] theorem resetBlock_gi (s : State) : (resetBlock s).gi = State.reset.gi := rfl
@[simp] theorem resetBlock_gt (s : State) : (resetBlock s).gt = State.reset.gt := rfl
@[simp] theorem resetBlock_gc (s : State) : (resetBlock s).gc = State.reset.gc := rfl
@[simp] theorem resetBlock_mi (s : State) : (resetBlock s).mi = State.reset.mi := rfl
@[simp] theorem resetBlock_mt (s : State) : (resetBlock s).mt = State.reset.mt := rfl
@[simp] theorem resetBlock_svalid (s : State) : (resetBlock s).svalid = State.reset.svalid := rfl
@[simp] theorem resetBlock_sx (s : State) : (resetBlock s).sx = State.reset.sx := rfl
@[simp] theorem resetBlock_slen (s : State) : (resetBlock s).slen = State.reset.slen := rfl
@[simp] theorem resetBlock_sdata (s : State) : (resetBlock s).sdata = State.reset.sdata := rfl
@[simp] theorem resetBlock_sec (s : State) : (resetBlock s).sec = State.reset.sec := rfl
@[simp] theorem resetBlock_pass (s : State) : (resetBlock s).pass = State.reset.pass := rfl
@[simp] theorem resetBlock_words (s : State) : (resetBlock s).words = State.reset.words := rfl
@[simp] theorem resetBlock_out (s : State) : (resetBlock s).out = State.reset.out := rfl
@[simp] theorem resetBlock_turns (s : State) : (resetBlock s).turns = s.turns := rfl
@[simp] theorem resetBlock_rdata (s : State) : (resetBlock s).rdata = s.rdata := rfl
@[simp] theorem resetBlock_drawSerial (s : State) : (resetBlock s).drawSerial = s.drawSerial := rfl

/-! ### `dropTurn` -/

@[simp] theorem dropTurn_params (s : State) : (dropTurn s).params = s.params := rfl
@[simp] theorem dropTurn_cmd (s : State) : (dropTurn s).cmd = s.cmd := rfl
@[simp] theorem dropTurn_status (s : State) : (dropTurn s).status = s.status := rfl
@[simp] theorem dropTurn_err (s : State) : (dropTurn s).err = s.err := rfl
@[simp] theorem dropTurn_info (s : State) : (dropTurn s).info = s.info := rfl
@[simp] theorem dropTurn_r0 (s : State) : (dropTurn s).r0 = s.r0 := rfl
@[simp] theorem dropTurn_olen (s : State) : (dropTurn s).olen = s.olen := rfl
@[simp] theorem dropTurn_len (s : State) : (dropTurn s).len = s.len := rfl
@[simp] theorem dropTurn_plen (s : State) : (dropTurn s).plen = s.plen := rfl
@[simp] theorem dropTurn_wlen (s : State) : (dropTurn s).wlen = s.wlen := rfl
@[simp] theorem dropTurn_id (s : State) : (dropTurn s).id = s.id := rfl
@[simp] theorem dropTurn_extFlag (s : State) : (dropTurn s).extFlag = s.extFlag := rfl
@[simp] theorem dropTurn_itexp (s : State) : (dropTurn s).itexp = s.itexp := rfl
@[simp] theorem dropTurn_gi (s : State) : (dropTurn s).gi = s.gi := rfl
@[simp] theorem dropTurn_gt (s : State) : (dropTurn s).gt = s.gt := rfl
@[simp] theorem dropTurn_gc (s : State) : (dropTurn s).gc = s.gc := rfl
@[simp] theorem dropTurn_mi (s : State) : (dropTurn s).mi = s.mi := rfl
@[simp] theorem dropTurn_mt (s : State) : (dropTurn s).mt = s.mt := rfl
@[simp] theorem dropTurn_svalid (s : State) : (dropTurn s).svalid = s.svalid := rfl
@[simp] theorem dropTurn_sx (s : State) : (dropTurn s).sx = s.sx := rfl
@[simp] theorem dropTurn_slen (s : State) : (dropTurn s).slen = s.slen := rfl
@[simp] theorem dropTurn_sdata (s : State) : (dropTurn s).sdata = s.sdata := rfl
@[simp] theorem dropTurn_sec (s : State) : (dropTurn s).sec = s.sec := rfl
@[simp] theorem dropTurn_pass (s : State) : (dropTurn s).pass = s.pass := rfl
@[simp] theorem dropTurn_words (s : State) : (dropTurn s).words = s.words := rfl
@[simp] theorem dropTurn_out (s : State) : (dropTurn s).out = s.out := rfl
@[simp] theorem dropTurn_turns (s : State) : (dropTurn s).turns = s.turns.tail := rfl
@[simp] theorem dropTurn_rdata (s : State) : (dropTurn s).rdata = s.rdata := rfl
@[simp] theorem dropTurn_drawSerial (s : State) : (dropTurn s).drawSerial = s.drawSerial := rfl

/-! ### `refuseBusy` -/

@[simp] theorem refuseBusy_params (s : State) : (refuseBusy s).params = s.params := rfl
@[simp] theorem refuseBusy_cmd (s : State) : (refuseBusy s).cmd = s.cmd := rfl
@[simp] theorem refuseBusy_status (s : State) : (refuseBusy s).status = s.status.withHaz := rfl
@[simp] theorem refuseBusy_err (s : State) : (refuseBusy s).err = s.err := rfl
@[simp] theorem refuseBusy_info (s : State) : (refuseBusy s).info = s.info := rfl
@[simp] theorem refuseBusy_r0 (s : State) : (refuseBusy s).r0 = s.r0 := rfl
@[simp] theorem refuseBusy_olen (s : State) : (refuseBusy s).olen = s.olen := rfl
@[simp] theorem refuseBusy_len (s : State) : (refuseBusy s).len = s.len := rfl
@[simp] theorem refuseBusy_plen (s : State) : (refuseBusy s).plen = s.plen := rfl
@[simp] theorem refuseBusy_wlen (s : State) : (refuseBusy s).wlen = s.wlen := rfl
@[simp] theorem refuseBusy_id (s : State) : (refuseBusy s).id = s.id := rfl
@[simp] theorem refuseBusy_extFlag (s : State) : (refuseBusy s).extFlag = s.extFlag := rfl
@[simp] theorem refuseBusy_itexp (s : State) : (refuseBusy s).itexp = s.itexp := rfl
@[simp] theorem refuseBusy_gi (s : State) : (refuseBusy s).gi = s.gi := rfl
@[simp] theorem refuseBusy_gt (s : State) : (refuseBusy s).gt = s.gt := rfl
@[simp] theorem refuseBusy_gc (s : State) : (refuseBusy s).gc = s.gc := rfl
@[simp] theorem refuseBusy_mi (s : State) : (refuseBusy s).mi = s.mi := rfl
@[simp] theorem refuseBusy_mt (s : State) : (refuseBusy s).mt = s.mt := rfl
@[simp] theorem refuseBusy_svalid (s : State) : (refuseBusy s).svalid = s.svalid := rfl
@[simp] theorem refuseBusy_sx (s : State) : (refuseBusy s).sx = s.sx := rfl
@[simp] theorem refuseBusy_slen (s : State) : (refuseBusy s).slen = s.slen := rfl
@[simp] theorem refuseBusy_sdata (s : State) : (refuseBusy s).sdata = s.sdata := rfl
@[simp] theorem refuseBusy_sec (s : State) : (refuseBusy s).sec = s.sec := rfl
@[simp] theorem refuseBusy_pass (s : State) : (refuseBusy s).pass = s.pass := rfl
@[simp] theorem refuseBusy_words (s : State) : (refuseBusy s).words = s.words := rfl
@[simp] theorem refuseBusy_out (s : State) : (refuseBusy s).out = s.out := rfl
@[simp] theorem refuseBusy_turns (s : State) : (refuseBusy s).turns = s.turns := rfl
@[simp] theorem refuseBusy_rdata (s : State) : (refuseBusy s).rdata = s.rdata := rfl
@[simp] theorem refuseBusy_drawSerial (s : State) : (refuseBusy s).drawSerial = s.drawSerial := rfl

/-! ### `refuseIdle` -/

@[simp] theorem refuseIdle_params (s : State) : (refuseIdle s).params = s.params := rfl
@[simp] theorem refuseIdle_cmd (s : State) : (refuseIdle s).cmd = s.cmd := rfl
@[simp] theorem refuseIdle_status (s : State) : (refuseIdle s).status = s.status.withBadacc := rfl
@[simp] theorem refuseIdle_err (s : State) : (refuseIdle s).err = s.err := rfl
@[simp] theorem refuseIdle_info (s : State) : (refuseIdle s).info = s.info := rfl
@[simp] theorem refuseIdle_r0 (s : State) : (refuseIdle s).r0 = s.r0 := rfl
@[simp] theorem refuseIdle_olen (s : State) : (refuseIdle s).olen = s.olen := rfl
@[simp] theorem refuseIdle_len (s : State) : (refuseIdle s).len = s.len := rfl
@[simp] theorem refuseIdle_plen (s : State) : (refuseIdle s).plen = s.plen := rfl
@[simp] theorem refuseIdle_wlen (s : State) : (refuseIdle s).wlen = s.wlen := rfl
@[simp] theorem refuseIdle_id (s : State) : (refuseIdle s).id = s.id := rfl
@[simp] theorem refuseIdle_extFlag (s : State) : (refuseIdle s).extFlag = s.extFlag := rfl
@[simp] theorem refuseIdle_itexp (s : State) : (refuseIdle s).itexp = s.itexp := rfl
@[simp] theorem refuseIdle_gi (s : State) : (refuseIdle s).gi = s.gi := rfl
@[simp] theorem refuseIdle_gt (s : State) : (refuseIdle s).gt = s.gt := rfl
@[simp] theorem refuseIdle_gc (s : State) : (refuseIdle s).gc = s.gc := rfl
@[simp] theorem refuseIdle_mi (s : State) : (refuseIdle s).mi = s.mi := rfl
@[simp] theorem refuseIdle_mt (s : State) : (refuseIdle s).mt = s.mt := rfl
@[simp] theorem refuseIdle_svalid (s : State) : (refuseIdle s).svalid = s.svalid := rfl
@[simp] theorem refuseIdle_sx (s : State) : (refuseIdle s).sx = s.sx := rfl
@[simp] theorem refuseIdle_slen (s : State) : (refuseIdle s).slen = s.slen := rfl
@[simp] theorem refuseIdle_sdata (s : State) : (refuseIdle s).sdata = s.sdata := rfl
@[simp] theorem refuseIdle_sec (s : State) : (refuseIdle s).sec = s.sec := rfl
@[simp] theorem refuseIdle_pass (s : State) : (refuseIdle s).pass = s.pass := rfl
@[simp] theorem refuseIdle_words (s : State) : (refuseIdle s).words = s.words := rfl
@[simp] theorem refuseIdle_out (s : State) : (refuseIdle s).out = s.out := rfl
@[simp] theorem refuseIdle_turns (s : State) : (refuseIdle s).turns = s.turns := rfl
@[simp] theorem refuseIdle_rdata (s : State) : (refuseIdle s).rdata = s.rdata := rfl
@[simp] theorem refuseIdle_drawSerial (s : State) : (refuseIdle s).drawSerial = s.drawSerial := rfl

/-! ### `answerRead` -/

@[simp] theorem answerRead_params (v : Word) (s : State) : (answerRead v s).params = s.params := rfl
@[simp] theorem answerRead_cmd (v : Word) (s : State) : (answerRead v s).cmd = s.cmd := rfl
@[simp] theorem answerRead_status (v : Word) (s : State) : (answerRead v s).status = s.status := rfl
@[simp] theorem answerRead_err (v : Word) (s : State) : (answerRead v s).err = s.err := rfl
@[simp] theorem answerRead_info (v : Word) (s : State) : (answerRead v s).info = s.info := rfl
@[simp] theorem answerRead_r0 (v : Word) (s : State) : (answerRead v s).r0 = s.r0 := rfl
@[simp] theorem answerRead_olen (v : Word) (s : State) : (answerRead v s).olen = s.olen := rfl
@[simp] theorem answerRead_len (v : Word) (s : State) : (answerRead v s).len = s.len := rfl
@[simp] theorem answerRead_plen (v : Word) (s : State) : (answerRead v s).plen = s.plen := rfl
@[simp] theorem answerRead_wlen (v : Word) (s : State) : (answerRead v s).wlen = s.wlen := rfl
@[simp] theorem answerRead_id (v : Word) (s : State) : (answerRead v s).id = s.id := rfl
@[simp] theorem answerRead_extFlag (v : Word) (s : State) : (answerRead v s).extFlag = s.extFlag := rfl
@[simp] theorem answerRead_itexp (v : Word) (s : State) : (answerRead v s).itexp = s.itexp := rfl
@[simp] theorem answerRead_gi (v : Word) (s : State) : (answerRead v s).gi = s.gi := rfl
@[simp] theorem answerRead_gt (v : Word) (s : State) : (answerRead v s).gt = s.gt := rfl
@[simp] theorem answerRead_gc (v : Word) (s : State) : (answerRead v s).gc = s.gc := rfl
@[simp] theorem answerRead_mi (v : Word) (s : State) : (answerRead v s).mi = s.mi := rfl
@[simp] theorem answerRead_mt (v : Word) (s : State) : (answerRead v s).mt = s.mt := rfl
@[simp] theorem answerRead_svalid (v : Word) (s : State) : (answerRead v s).svalid = s.svalid := rfl
@[simp] theorem answerRead_sx (v : Word) (s : State) : (answerRead v s).sx = s.sx := rfl
@[simp] theorem answerRead_slen (v : Word) (s : State) : (answerRead v s).slen = s.slen := rfl
@[simp] theorem answerRead_sdata (v : Word) (s : State) : (answerRead v s).sdata = s.sdata := rfl
@[simp] theorem answerRead_sec (v : Word) (s : State) : (answerRead v s).sec = s.sec := rfl
@[simp] theorem answerRead_pass (v : Word) (s : State) : (answerRead v s).pass = s.pass := rfl
@[simp] theorem answerRead_words (v : Word) (s : State) : (answerRead v s).words = s.words := rfl
@[simp] theorem answerRead_out (v : Word) (s : State) : (answerRead v s).out = s.out := rfl
@[simp] theorem answerRead_turns (v : Word) (s : State) : (answerRead v s).turns = s.turns := rfl
@[simp] theorem answerRead_rdata (v : Word) (s : State) : (answerRead v s).rdata = v := rfl
@[simp] theorem answerRead_drawSerial (v : Word) (s : State) : (answerRead v s).drawSerial = s.drawSerial := rfl

end Sys2Proof.Machine
end

