-- ==== Sys2Proof/Laws/Ops.lean ====
section
/-!
SUPPORT. What each shared operation can do, said once: how a command completes, what an access of the host comes to, and
what one step is in terms of the turn it takes.
-/
namespace Sys2Proof.Machine

/-! ### Completion -/

/-- A command always completes with a next state: its own result finished, or the error report. -/
theorem completeCommand_cases (s : State) (r : Except Raise State) :
    (∃ t, r = .ok t ∧ completeCommand s r = .next (finishCommand t)) ∨
      (∃ e, r = .error e ∧ completeCommand s r = .next (reportError e s)) := by
  cases r with
  | ok t => exact .inl ⟨t, rfl, rfl⟩
  | error e => exact .inr ⟨e, rfl, rfl⟩

/-- What a next state of a command is. -/
theorem completeCommand_next {s t : State} {r : Except Raise State} (h : completeCommand s r = .next t) :
    (∃ u, r = .ok u ∧ t = finishCommand u) ∨ (∃ e, r = .error e ∧ t = reportError e s) := by
  rcases completeCommand_cases s r with ⟨u, hr, hc⟩ | ⟨e, hr, hc⟩
  · exact .inl ⟨u, hr, by rw [hc] at h; exact (Host.Outcome.next.inj h).symm⟩
  · exact .inr ⟨e, hr, by rw [hc] at h; exact (Host.Outcome.next.inj h).symm⟩

@[simp] theorem completeCommand_ok (s t : State) : completeCommand s (.ok t) = .next (finishCommand t) := rfl

@[simp] theorem completeCommand_error (s : State) (e : Raise) : completeCommand s (.error e) = .next (reportError e s) :=
  rfl

/-! ### The host's accesses -/

/-- What one read of the host comes to. -/
theorem hostRead_cases (addr : Offset) (size : Nat) (s : State) :
    (s.status.busy = true ∧ reachedCell s.params addr size = some .status ∧
        hostRead addr size s = answerRead s.status.word s) ∨
      (s.status.busy = true ∧ reachedCell s.params addr size ≠ some .status ∧
        hostRead addr size s = answerRead 0 (refuseBusy s)) ∨
      (s.status.busy = false ∧ (∃ c, reachedCell s.params addr size = some c ∧
        hostRead addr size s = answerRead (readCell c s) s)) ∨
      (s.status.busy = false ∧ reachedCell s.params addr size = none ∧
        hostRead addr size s = answerRead 0 (refuseIdle s)) := by
  unfold hostRead
  cases hb : s.status.busy
  · cases hc : reachedCell s.params addr size <;> simp
  · by_cases hc : reachedCell s.params addr size = some .status <;> simp [hc]

/-- What one write of the host comes to. -/
theorem hostWrite_cases (addr : Offset) (size : Nat) (v : Word) (s : State) :
    (s.status.busy = true ∧ hostWrite addr size v s = refuseBusy s) ∨
      (s.status.busy = false ∧ (∃ c, reachedCell s.params addr size = some c ∧ c.writable = true ∧
        v.toNat < 2 ^ c.width ∧ hostWrite addr size v s = writeCell c v s)) ∨
      (s.status.busy = false ∧
        (∀ c, reachedCell s.params addr size = some c → c.writable = true → ¬ v.toNat < 2 ^ c.width) ∧
        hostWrite addr size v s = refuseIdle s) := by
  unfold hostWrite
  cases hb : s.status.busy
  · cases hc : reachedCell s.params addr size with
    | none => simp
    | some c =>
      by_cases hw : c.writable = true <;> by_cases hv : v.toNat < 2 ^ c.width <;> simp [hw, hv] <;> omega
  · simp

/-! ### One step -/

/-- What a next state of a step is: the turn taken off and taken. -/
theorem step_next {s t : State} (h : step s = .next t) :
    (∃ a, nextTurn s = .host a ∧ t = hostAccess a (dropTurn s)) ∨
      (nextTurn s = .reset ∧ t = resetBlock (dropTurn s)) ∨
      (nextTurn s = .block ∧ blockStep (dropTurn s) = .next t) := by
  unfold step at h
  cases hn : nextTurn s with
  | host a => rw [hn] at h; exact .inl ⟨a, rfl, (Host.Outcome.next.inj h).symm⟩
  | reset => rw [hn] at h; exact .inr (.inl ⟨rfl, (Host.Outcome.next.inj h).symm⟩)
  | block => rw [hn] at h; exact .inr (.inr ⟨rfl, h⟩)

/-- What a next state of the block's turn is. -/
theorem blockStep_next {s t : State} (h : blockStep s = .next t) :
    (s.status.busy = false ∧ t = s) ∨
      (s.status.busy = true ∧ ∃ i, fetchCommand s = .ok i ∧ exec i s = .next t) ∨
      (s.status.busy = true ∧ ∃ e, fetchCommand s = .error e ∧ t = completeIllegal s) := by
  unfold blockStep at h
  cases hb : s.status.busy
  · rw [hb] at h; exact .inl ⟨rfl, (Host.Outcome.next.inj h).symm⟩
  · rw [hb] at h
    cases hf : fetchCommand s with
    | ok i => rw [hf] at h; exact .inr (.inl ⟨rfl, i, rfl, h⟩)
    | error e => rw [hf] at h; exact .inr (.inr ⟨rfl, e, rfl, (Host.Outcome.next.inj h).symm⟩)

/-! ### The share table -/

theorem mem_validSlots (s : State) (i : Nat) : i ∈ validSlots s ↔ i < 16 ∧ s.svalid.getLsbD i = true := by
  simp [validSlots, Config.maxShareCount]

@[simp] theorem length_slotData (s : State) (i n : Nat) : (slotData s i n).length = n := by simp [slotData]

@[simp] theorem length_secretBytes (s : State) : (secretBytes s).length = s.len.toNat := by simp [secretBytes]

@[simp] theorem length_passBytes (s : State) : (passBytes s).length = s.plen.toNat := by simp [passBytes]

@[simp] theorem length_mnemonicWords (s : State) : (mnemonicWords s).length = s.wlen.toNat := by simp [mnemonicWords]

@[simp] theorem length_drawBytes (s : State) (name : DrawName) (n : Nat) : (drawBytes s name n).length = n := by
  simp [drawBytes]

end Sys2Proof.Machine
end

