-- ==== Sys2Proof/Laws/PerInstr.lean ====
section
/-!
SUPPORT. Statements about every command, one lemma per constructor. `WordFields`: the four fields of a command's word are
its opcode, its operands and 0 (spec 30_encoding.md R60, R62).
-/
namespace Sys2Proof.Laws

open Sys2Proof

/-- The fields of a packed word (30_encoding.md R60). -/
theorem packWord_fields (opc a b : Byte) :
    opcField (packWord opc a b) = opc ∧ aField (packWord opc a b) = a ∧ bField (packWord opc a b) = b ∧
      zField (packWord opc a b) = 0 := by
  refine ⟨?_, ?_, ?_, ?_⟩ <;> apply BitVec.eq_of_getLsbD_eq <;> intro k hk <;>
    simp only [opcField, aField, bField, zField, packWord, BitVec.getLsbD_extractLsb', BitVec.getLsbD_append]
  · simp [show k < 16 by omega, hk]
  · simp [show 8 + k < 16 by omega, hk]
  · simp [show ¬ 16 + k < 16 by omega, show 16 + k - 16 = k by omega, hk]
  · simp [show ¬ 24 + k < 16 by omega, show ¬ 24 + k - 16 < 8 by omega]

end Sys2Proof.Laws

namespace Sys2Proof.Laws.WordFields

open Sys2Proof Sys2Proof.Laws

/-- The word of the command carries its opcode and operands, and 0 in field `Z`. -/
def Statement (i : Instr) : Prop :=
  opcField (encode i) = i.opcode ∧ aField (encode i) = i.operandA ∧ bField (encode i) = i.operandB ∧ zField (encode i) = 0

theorem gfmul (a b : Byte) : Statement (.gfmul a b) := packWord_fields _ _ _

theorem gfexp (i : Byte) : Statement (.gfexp i) := packWord_fields _ _ _

theorem gflog (a : Byte) : Statement (.gflog a) := packWord_fields _ _ _

theorem interp (x : Byte) : Statement (.interp x) := packWord_fields _ _ _

theorem split (t n : Nat) : Statement (.split t n) := packWord_fields _ _ _

theorem recover (t : Nat) : Statement (.recover t) := packWord_fields _ _ _

theorem encrypt : Statement .encrypt := packWord_fields _ _ _

theorem decrypt : Statement .decrypt := packWord_fields _ _ _

theorem rscreate : Statement .rscreate := packWord_fields _ _ _

theorem rsverify : Statement .rsverify := packWord_fields _ _ _

theorem mnenc : Statement .mnenc := packWord_fields _ _ _

theorem mndec : Statement .mndec := packWord_fields _ _ _

end Sys2Proof.Laws.WordFields
end

