-- ==== Sys2Proof/Laws/Radix.lean ====
section
/-!
SUPPORT. The laws of big-endian sequences: lengths and bounds, one lemma per function.
-/
namespace Sys2Proof.Machine

@[simp] theorem length_toDigits (w n v : Nat) : (toDigits w n v).length = n := by simp [toDigits]

@[simp] theorem length_bytesBE (v n : Nat) : (bytesBE v n).length = n := length_toDigits 8 n v

@[simp] theorem length_wordsBE (v n : Nat) : (wordsBE v n).length = n := length_toDigits 10 n v

@[simp] theorem length_xorBytes (a b : List Byte) : (xorBytes a b).length = min a.length b.length := by
  simp [xorBytes]

@[simp] theorem length_pieces {α : Type} (k count : Nat) (xs : List α) : (pieces k count xs).length = count := by
  induction count generalizing xs with
  | zero => rfl
  | succ n ih => simp [pieces, ih]

theorem ofDigits_foldl {w : Nat} (ds : List (BitVec w)) (acc : Nat) :
    ds.foldl (fun a d => a * 2 ^ w + d.toNat) acc = acc * 2 ^ (w * ds.length) + ofDigits ds := by
  induction ds generalizing acc with
  | nil => simp [ofDigits]
  | cons d rest ih =>
    have hd : ofDigits (d :: rest) = d.toNat * 2 ^ (w * rest.length) + ofDigits rest := by
      rw [← ih]; simp [ofDigits]
    rw [List.foldl_cons, ih, hd, List.length_cons, Nat.mul_add, Nat.pow_add, Nat.mul_one,
      Nat.mul_comm (2 ^ (w * rest.length)), Nat.add_mul, Nat.mul_assoc, Nat.add_assoc]

@[simp] theorem ofDigits_nil {w : Nat} : ofDigits ([] : List (BitVec w)) = 0 := rfl

theorem ofDigits_cons {w : Nat} (d : BitVec w) (ds : List (BitVec w)) :
    ofDigits (d :: ds) = d.toNat * 2 ^ (w * ds.length) + ofDigits ds := by
  rw [ofDigits, List.foldl_cons, ofDigits_foldl]; simp

theorem ofDigits_append {w : Nat} (a b : List (BitVec w)) :
    ofDigits (a ++ b) = ofDigits a * 2 ^ (w * b.length) + ofDigits b := by
  rw [← ofDigits_foldl]; simp [ofDigits]

/-- The integer of `n` digits is below `2 ^ (w * n)`. -/
theorem ofDigits_lt {w : Nat} (ds : List (BitVec w)) : ofDigits ds < 2 ^ (w * ds.length) := by
  induction ds with
  | nil => simp
  | cons d rest ih =>
    rw [ofDigits_cons, List.length_cons, Nat.mul_add, Nat.pow_add, Nat.mul_one]
    have h : (d.toNat + 1) * 2 ^ (w * rest.length) ≤ 2 ^ w * 2 ^ (w * rest.length) :=
      Nat.mul_le_mul_right _ d.isLt
    rw [Nat.add_mul] at h
    rw [Nat.mul_comm (2 ^ (w * rest.length))]
    omega

end Sys2Proof.Machine
end

