-- ==== Sys2Proof/Tests/Slice0.lean ====
section
/-!
SUPPORT. Tests: vectors of the spec (95_test_vectors.md V3 to V12, 46_hash_primitives.md R177), and for every obligation
with hypotheses a witness of them, clause by clause. Every expected value is the spec's.
-/
namespace Sys2Proof.Tests

open Sys2Proof Sys2Proof.Machine

/-! ### Small states -/

/-- One part of the next state, if there is one. -/
def onNextState {α : Type} (o : Host.Outcome State Fault Refusal) (f : State → α) : Option α :=
  match o with
  | .next s => some (f s)
  | .fault _ => none
  | .refused _ => none

/-- A state with a share table, each share (slot, `SX`, data) in a valid slot. -/
def tableState (shares : List (Nat × Byte × List Byte)) : State :=
  { State.reset with
    svalid := shares.foldl (fun v p => v ||| BitVec.ofNat 16 (2 ^ p.1)) 0
    sx := shares.foldl (fun m p => Memory.write m p.1 p.2.1) []
    slen := shares.foldl (fun m p => Memory.write m p.1 (BitVec.ofNat 16 p.2.2.length)) []
    sdata := shares.foldl (fun m p => Memory.writeList m (slotKey p.1 0) p.2.2) [] }

/-- A state with a secret. -/
def secretState (bs : List Byte) : State :=
  { State.reset with sec := Memory.ofList 0 bs, len := BitVec.ofNat 16 bs.length }

/-- A state with a secret and a passphrase. -/
def passState (bs pass : List Byte) : State :=
  { secretState bs with pass := Memory.ofList 0 pass, plen := BitVec.ofNat 16 pass.length }

/-- A state with mnemonic words. -/
def wordsState (ws : List MnWord) : State :=
  { State.reset with words := Memory.ofList 0 ws, wlen := BitVec.ofNat 16 ws.length }

/-- A state with a command pending. -/
def pendingState (c : Word) : State := issueCommand c State.reset

/-- What an error leaves: `STATUS`, `ERR`, `INFO`. -/
def report (s : State) : Word × Byte × Word := (s.status.word, s.err, s.info)

/-- What a byte result leaves: `STATUS` and `OUT[0..OLEN)`. -/
def outBytes (s : State) : Word × List Byte := (s.status.word, Memory.readList s.out 0 s.olen.toNat)

/-- What a scalar result leaves. -/
def scalar (s : State) : Word × Word := (s.status.word, s.r0)

/-- The bytes `k`, `k + 1`, ... -/
def countBytes (n k : Nat) : List Byte := (List.range n).map fun i => BitVec.ofNat 8 (k + i)

/-- The mnemonic of V1. -/
def v1Words : List MnWord :=
  [145, 656, 0, 0, 65, 258, 472, 581, 99, 55] ++ [93, 533, 485, 1004, 882, 253, 105, 26, 991, 197]

/-- The share value of V1. -/
def v1Value : List Byte :=
  [0x41, 0x40, 0x9D, 0x89, 0x14, 0x63, 0x0D, 0xC5] ++ [0xD8, 0x55, 0xE5, 0xFB, 0x37, 0x23, 0xF4, 0x69]

/-! ### Well-formedness: every operand check refuses an operand that does not fit -/

theorem test_wellFormed_split_threshold : (Instr.split 256 1).wellFormed = false ∧ (Instr.split 255 1).wellFormed = true := by
  decide

theorem test_wellFormed_split_count : (Instr.split 1 256).wellFormed = false ∧ (Instr.split 1 255).wellFormed = true := by
  decide

theorem test_wellFormed_recover : (Instr.recover 256).wellFormed = false ∧ (Instr.recover 255).wellFormed = true := by
  decide

/-! ### Decoding: words written out from 30_encoding.md R60 and R62, as `Z`, `B`, `A`, `OPC`, and from V3, V5 -/

theorem test_decode_gf256 :
    decode 0b00000000_10000011_01010111_00000001 = .ok (.gfmul 0x57 0x83) ∧
      decode 0b00000000_00000000_11111110_00000010 = .ok (.gfexp 254) ∧
      decode 0b00000000_00000000_11111111_00000011 = .ok (.gflog 0xFF) := ⟨rfl, rfl, rfl⟩

theorem test_decode_interp : decode 0b00000000_00000000_11001000_00010000 = .ok (.interp 200) := rfl

theorem test_decode_shamir :
    decode 0b00000000_00010001_00010100_00100000 = .ok (.split 20 17) ∧
      decode 0b00000000_00000000_00000010_00100001 = .ok (.recover 2) := ⟨rfl, rfl⟩

theorem test_decode_feistel :
    decode 0b00000000_00000000_00000000_00110000 = .ok .encrypt ∧
      decode 0b00000000_00000000_00000000_00110001 = .ok .decrypt := ⟨rfl, rfl⟩

theorem test_decode_rs1024 :
    decode 0b00000000_00000000_00000000_01000000 = .ok .rscreate ∧
      decode 0b00000000_00000000_00000000_01000001 = .ok .rsverify := ⟨rfl, rfl⟩

theorem test_decode_mnemonic :
    decode 0b00000000_00000000_00000000_01010000 = .ok .mnenc ∧
      decode 0b00000000_00000000_00000000_01010001 = .ok .mndec := ⟨rfl, rfl⟩

theorem test_decode_illegal :
    decode 0x01000001 = .error .zNotZero ∧ decode 0x00010002 = .error .unusedOperandNotZero ∧
      decode 0x00010021 = .error .unusedOperandNotZero ∧ decode 0x00000151 = .error .unusedOperandNotZero ∧
      decode 0x00000004 = .error .unassignedOpcode ∧ decode 0x00000022 = .error .unassignedOpcode := ⟨rfl, rfl, rfl, rfl, rfl, rfl⟩

theorem test_encode :
    encode (.gfmul 0x53 0xCA) = 0x00CA5301 ∧ encode (.split 3 5) = 0x00050320 ∧ encode (.recover 16) = 0x00001021 ∧
      encode (.interp 255) = 0x0000FF10 := by decide

/-! ### Memory -/

theorem test_reset_memories_wf :
    Memory.wf 256 State.reset.sec ∧ Memory.wf 256 State.reset.words ∧ Memory.wf 4096 State.reset.sdata := by decide

theorem test_write_keeps_form :
    Memory.write (Memory.write (Memory.write ([] : Memory 8) 5 1) 2 7) 5 0 = [(2, 7)] := by decide

/-! ### Commands -/

/-- V3: reduction by 0x11B. -/
theorem test_gfmul_reduces : onNextState (exec (.gfmul 0x02 0x80) State.reset) scalar = some (2, 0x1B) := by decide

/-- V3: a zero operand is tested before the tables. -/
theorem test_gfmul_zero : onNextState (exec (.gfmul 0x00 0xAB) State.reset) scalar = some (2, 0) := by decide

/-- V3: the extra entry of `EXP`. -/
theorem test_gfexp_255 : onNextState (exec (.gfexp 255) State.reset) scalar = some (2, 1) := by decide

/-- V3. -/
theorem test_gfexp_254 : onNextState (exec (.gfexp 254) State.reset) scalar = some (2, 0xF6) := by decide

/-- V3. -/
theorem test_gflog_2 : onNextState (exec (.gflog 2) State.reset) scalar = some (2, 25) := by decide

/-- V3: defined, not an error. -/
theorem test_gflog_0 : onNextState (exec (.gflog 0) State.reset) scalar = some (2, 0) := by decide

/-- The first table of V4. -/
def v4Table : State := tableState [(0, 1, [1, 2, 0]), (1, 2, [3, 4, 0])]

/-- V4. -/
theorem test_interp_0 :
    onNextState (exec (.interp 0) v4Table) outBytes = some (2, [0xF6, 0, 0]) := by decide +kernel

/-- V4: first pair by `s`, then `t`. -/
theorem test_interp_duplicate :
    onNextState (exec (.interp 0) (tableState [(1, 9, [1]), (3, 9, [2]), (4, 9, [3])])) report =
      some (6, 0x84, 0x00000301) := by decide +kernel

/-- The shares of the first row of V5: what a `SPLIT 2, 3` comes to with the pad the row states (`splitShares` is the
function the command's meaning calls on its own draws, which are free values). -/
def v5Shares : List (List Byte) :=
  [[0x0B, 0x1F, 0x06, 0x34, 0x62, 0x63, 0x60, 0x61, 0xD7, 0xD6, 0xD5, 0xD4, 0x6A, 0x6B, 0x68, 0x69],
   [0xCF, 0x6C, 0x76, 0x16, 0xC6, 0xC7, 0xC4, 0xC5, 0x7B, 0x7A, 0x79, 0x78, 0xCE, 0xCF, 0xCC, 0xCD],
   [0x98, 0xF9, 0xE6, 0x70, 0x31, 0x30, 0x33, 0x32, 0x94, 0x95, 0x96, 0x97, 0x39, 0x38, 0x3B, 0x3A]]

/-- V5, first row. -/
theorem test_split_shares : splitShares 3 (countBytes 16 0) (countBytes 12 0xA0) [] = v5Shares := by decide +kernel

/-- V5: the threshold is tested before the count. -/
theorem test_split_threshold_first :
    onNextState (exec (.split 20 17) State.reset) report = some (6, 0x01, 0x1114) := by decide

/-- The table of V5 with slots 0 and 2 valid. -/
def v5Table : State := tableState [(0, 0, v5Shares.getD 0 []), (2, 2, v5Shares.getD 2 [])]

/-- V5. -/
theorem test_recover_ok : onNextState (exec (.recover 2) v5Table) outBytes = some (2, countBytes 16 0) := by
  decide +kernel

/-- V5: one share of two. -/
theorem test_recover_mismatch :
    onNextState (exec (.recover 2) { v5Table with svalid := 0x0004 }) report = some (6, 0x04, 0) := by decide +kernel

/-- V6. -/
theorem test_encrypt_charset :
    onNextState (exec .encrypt (passState (countBytes 16 0) [0x61, 0x62, 0x7F])) report = some (6, 0x0C, 0x027F) := by
  decide +kernel

/-- V6: the length comes before the charset. -/
theorem test_encrypt_length :
    onNextState (exec .encrypt (passState (countBytes 15 0) [0xC3])) report = some (6, 0x81, 15) := by decide +kernel

/-- V6: even, but below 16. -/
theorem test_decrypt_length :
    onNextState (exec .decrypt (secretState (countBytes 14 0))) report = some (6, 0x81, 14) := by decide +kernel

/-- V7. -/
theorem test_rscreate :
    onNextState (exec .rscreate (wordsState ((List.range 17).map fun i => BitVec.ofNat 10 (i + 1))))
      (fun t => (t.wlen, Memory.readList t.words 17 3)) = some (20, [158, 579, 949]) := by decide +kernel

/-- V7: with nothing before the checksum. -/
theorem test_rscreate_empty :
    onNextState (exec .rscreate State.reset) (fun t => (t.wlen, t.words)) =
      some (3, [(0, 413), (1, 424), (2, 113)]) := by decide +kernel

/-- V7. -/
theorem test_rsverify_holds :
    onNextState (exec .rsverify { wordsState v1Words with extFlag := 1 }) scalar = some (2, 1) := by decide +kernel

/-- V7: the other customization. -/
theorem test_rsverify_flag : onNextState (exec .rsverify (wordsState v1Words)) scalar = some (2, 0) := by decide +kernel

/-- The registers of V1's mnemonic. -/
def v1Header : Header := { id := 0x1234, extFlag := 1, itexp := 0, gi := 0, gt := 1, gc := 1, mi := 0, mt := 1 }

/-- V8. -/
theorem test_mnenc :
    onNextState (exec .mnenc (writeHeaderRegs v1Header (secretState v1Value))) (fun t => (t.wlen, mnemonicWords t)) =
      some (20, v1Words) := by decide +kernel

/-- V8: the lowest bad field is reported. -/
theorem test_mnenc_field :
    onNextState (exec .mnenc (secretState (countBytes 16 0))) report = some (6, 0x82, 1) := by decide +kernel

/-- V9. -/
theorem test_mndec :
    onNextState (exec .mndec (wordsState v1Words)) (fun t => (headerRegs t, outBytes t)) =
      some (v1Header, (2, v1Value)) := by decide +kernel

/-- Words of V9 with both faults, the padding before the group count. -/
def v9BothFaults : List MnWord := [0, 0, 8, 256, 1023] ++ List.replicate 12 0 ++ [792, 1016, 134]

/-- V9. -/
theorem test_mndec_padding :
    onNextState (exec .mndec (wordsState v9BothFaults)) report = some (6, 0x07, 2) := by decide +kernel

/-- R177. -/
theorem test_sha256_abc : sha256 [0x61, 0x62, 0x63] = bytesBE
    0xBA7816BF8F01CFEA414140DE5DAE2223B00361A396177A9CB410FF61F20015AD 32 := by decide +kernel

/-- R177. -/
theorem test_hmac_empty : hmacSha256 [] [] = bytesBE
    0xB613679A0814D9EC772F95D778C35FC5FF1697C493715653C6C712144292C5AD 32 := by decide +kernel

/-- R177: `"password"`, `"salt"`, two iterations. -/
theorem test_pbkdf2 : pbkdf2 [0x70, 0x61, 0x73, 0x73, 0x77, 0x6F, 0x72, 0x64] [0x73, 0x61, 0x6C, 0x74] 2 32 = bytesBE
    0xAE4D0C95AF6B46D32D0ADFF928F06DD02A303F8EF3C251DFD6E2D85A95474C43 32 := by decide +kernel

/-! ### The port and the step (V11, V12) -/

/-- Row 2: data wider than the cell. -/
theorem test_port_wide_write :
    onNextState (step { State.reset with turns := [.host (.write 0x0024 4 0x00008000)] })
      (fun t => (t.id, t.status.word)) = some (0, 0x200) := by decide

/-- Row 10: a result read too early. -/
theorem test_port_early_read :
    onNextState (step { pendingState 0x00030301 with turns := [.host (.read 0x0010 4)], rdata := 7 })
      (fun t => (t.rdata, t.status.word)) = some (0, 0x101) := by decide

/-- Row 12: the block's step. -/
theorem test_block_step : onNextState (step (pendingState 0x00030301)) scalar = some (2, 5) := by decide

/-- Row 14: an illegal word. -/
theorem test_illegal_step : onNextState (step (pendingState 0)) report = some (6, 0x80, 0) := by decide

/-- Row 16: reset. -/
theorem test_reset_step :
    step { pendingState 0x00030301 with turns := [.reset], id := 0x7FFF } = .next State.reset := by
  rfl

/-- V12: `SPLIT 1, 1` as the first command after reset. -/
theorem test_first_command : onNextState (step (State.reset.withFetchWord 32 0x00010120)) report = some (6, 0x81, 0) := by
  decide

/-! ### The host's scripts -/

/-- V2: the passphrase `"TREZOR"`; V6: the bytes `c3 a9`, which are the character U+00E9 in UTF-8. -/
theorem test_passphrase_bytes :
    passphraseBytes ['T', 'R', 'E', 'Z', 'O', 'R'] = [0x54, 0x52, 0x45, 0x5A, 0x4F, 0x52] ∧
      passphraseBytes [Char.ofNat 0xE9] = [0xC3, 0xA9] := by decide

/-- The longer forms, worked by hand: 20AC is 0010 000010 101100, 1F600 is 000 011111 011000 000000. -/
theorem test_passphrase_long_forms :
    passphraseBytes [Char.ofNat 0x20AC] = [0xE2, 0x82, 0xAC] ∧
      passphraseBytes [Char.ofNat 0x1F600] = [0xF0, 0x9F, 0x98, 0x80] := by decide

/-- An element beyond its capacity reaches no cell: neither `WORDS[0]` nor `CMD` changes. -/
theorem test_set_beyond_capacity :
    setCell (.pass 256) 1 State.reset = refuseIdle State.reset ∧
      setCell (.pass 7680) 1 State.reset = refuseIdle State.reset ∧
      setCell (.pass 255) 1 State.reset = { State.reset with pass := [(255, 1)] } := by decide

/-! ### Witnesses: each theorem meets the hypotheses of the obligation it is named after, one part for each clause -/

theorem witness_DecodeOfEncode : (Instr.split 255 255).wellFormed = true := by decide

theorem witness_EncodeOfDecode : decode 0x00FFFF20 = .ok (.split 255 255) := rfl

theorem witness_StepRunsDecodedCommand :
    (pendingState 0x00030301).turns = [] ∧ (pendingState 0x00030301).status.busy = true ∧
      decode (pendingState 0x00030301).cmd = .ok (.gfmul 3 3) ∧
      ∃ rest, ({ pendingState 0x00030301 with turns := [.block, .reset] } : State).turns = .block :: rest :=
  ⟨rfl, rfl, rfl, [.reset], rfl⟩

theorem witness_StepTakesTheNextTurn :
    ({ State.reset with turns := [.host (.read 4 4)] } : State).turns = .host (.read 4 4) :: [] ∧
      ({ State.reset with turns := [.reset] } : State).turns = .reset :: [] ∧
      ({ State.reset with turns := [.block] } : State).turns = .block :: [] ∧
      State.reset.turns = [] ∧ State.reset.status.busy = false := by decide

theorem witness_IllegalWordReportsItself :
    (pendingState 0x00010002).status.busy = true ∧
      ∀ row : Instr, (pendingState 0x00010002).cmd &&& row.mask ≠ row.opcode.setWidth 32 := by
  refine ⟨rfl, fun row => ?_⟩
  cases row <;> simp only [Instr.mask, Instr.opcode] <;> decide

theorem witness_CmdWriteIssues : State.reset.status.busy = false := rfl

theorem witness_BusyAccessRefused :
    (pendingState 0).status.busy = true ∧ Access.read 0x0004 4 = .read 0x0004 4 ∧
      Access.write 0x0004 4 0 ≠ .read 0x0004 4 ∧ Access.read 0x0004 2 ≠ .read 0x0004 4 := by decide

/-- No cell has the offset of V11, row 8. -/
theorem no_cell_at_0048 (p : Params) (c : PortCell) (_ : c.Mapped p) : c.offset ≠ (0x0048 : Offset).toNat := by
  cases c <;> simp [PortCell.offset] <;> omega

theorem witness_IdleAccessRefused :
    Config.ParamsOk State.reset.params ∧ State.reset.status.busy = false ∧
      (Access.read 0x0024 2).RefusedIdle State.reset.params ∧ (Access.read 0x0026 4).RefusedIdle State.reset.params ∧
      (Access.read 0x0048 4).RefusedIdle State.reset.params ∧ (Access.write 0x0010 4 5).RefusedIdle State.reset.params ∧
      (Access.write 0x0024 4 0x8000).RefusedIdle State.reset.params :=
  ⟨by decide, rfl, .inl (by decide), .inr (.inl (by decide)), .inr (.inr (.inl (no_cell_at_0048 _))),
    .inr (.inr (.inr ⟨.r0, 5, by decide⟩)), .inr (.inr (.inr ⟨.id, 0x8000, by decide⟩))⟩

theorem witness_IdleAccessReadsOrReplaces :
    Config.ParamsOk State.reset.params ∧ State.reset.status.busy = false ∧
      (PortCell.words 255).Mapped State.reset.params ∧ (PortCell.words 255).offset = (0x0FFC : Offset).toNat ∧
      (PortCell.words 255).writable = true ∧ (0x3FF : Word).toNat < 2 ^ (PortCell.words 255).width ∧
      PortCell.words 255 ≠ .cmd ∧ (PortCell.words 254).Mapped State.reset.params ∧
      PortCell.words 254 ≠ .words 255 ∧
      PortCell.cmd.Mapped State.reset.params ∧ PortCell.cmd.offset = (0 : Offset).toNat ∧ PortCell.cmd.writable = true ∧
      (0xFFFFFFFF : Word).toNat < 2 ^ PortCell.cmd.width := by decide

theorem witness_AddressMapIsOneCellPerOffset :
    Config.ParamsOk Config.defaultParams ∧ (PortCell.sdata 15 255).Mapped Config.defaultParams ∧
      cellAt Config.defaultParams 0x7FFC = some (.sdata 15 255) ∧
      cellAt Config.defaultParams 0x0044 = some .svalid := by decide

theorem witness_CommandsOnTheResetState :
    ([.block, .reset] : List Turn) = .block :: [.reset] ∧ (1 : Nat) ≤ 16 ∧ (16 : Nat) ≤ 16 := by decide

theorem witness_EveryStepKeepsInv : Inv State.reset ∧ step State.reset = .next State.reset := by
  refine ⟨?_, rfl⟩
  decide

theorem witness_StickyBitsSetOnlyByRefusals :
    step { pendingState 0 with turns := [.host (.read 0x0010 4)] } =
        .next { pendingState 0 with rdata := 0, status := { (pendingState 0).status with haz := true } } ∧
      ({ pendingState 0 with turns := [.host (.read 0x0010 4)] } : State).turns.head? ≠ some .reset ∧
      step { State.reset with turns := [.host (.read 0x0048 4)] } =
        .next { State.reset with status := { State.reset.status with badacc := true } } ∧
      Config.ParamsOk State.reset.params ∧ (Access.read 0x0048 4).RefusedIdle State.reset.params :=
  ⟨rfl, by decide, rfl, by decide, .inr (.inr (.inl (no_cell_at_0048 _)))⟩

theorem witness_CommandsWriteOnlyTheirCells :
    exec (.gfexp 255) State.reset = .next (scalarResult 1 State.reset) ∧
      Instr.gfexp 255 ≠ .mndec ∧ Instr.gfexp 255 ≠ .rscreate ∧ Instr.gfexp 255 ≠ .mnenc ∧
      ∀ a b, Instr.gfexp 255 ≠ .split a b :=
  ⟨rfl, by decide, by decide, by decide, by intro a b h; cases h⟩

theorem witness_ErrorReportIsTheWholeEffect :
    State.reset.status.error = false ∧
      exec (.recover 0) State.reset = .next (errorReport .invalidThreshold 0 State.reset) ∧
      (errorReport .invalidThreshold 0 State.reset).status.error = true := ⟨rfl, rfl, rfl⟩

theorem witness_CommonCompletionEffects :
    (∀ a b, Instr.encrypt ≠ .gfmul a b) ∧ (∀ k, Instr.encrypt ≠ .gfexp k) ∧ (∀ a, Instr.encrypt ≠ .gflog a) ∧
      Instr.encrypt ≠ .rsverify ∧ (∀ x, Instr.rsverify ≠ .interp x) ∧ (∀ k, Instr.rsverify ≠ .recover k) ∧
      Instr.rsverify ≠ .encrypt ∧ Instr.rsverify ≠ .decrypt ∧ Instr.rsverify ≠ .mndec := by
  refine ⟨?_, ?_, ?_, by decide, ?_, ?_, by decide, by decide, by decide⟩ <;> intros <;> intro h <;> cases h

theorem witness_HeaderRegistersNotRead :
    (∃ k, Instr.recover 255 = .recover k) ∧ (Instr.rsverify = .rsverify ∧ v1Header.extFlag = 1) ∧
      ∃ h : Header, h ≠ headerRegs State.reset ∧ h.id = State.reset.id ∧ h.extFlag = State.reset.extFlag ∧
        h.itexp = State.reset.itexp :=
  ⟨⟨255, rfl⟩, ⟨rfl, rfl⟩, ⟨{ headerRegs State.reset with mt := 31 }, by decide, rfl, rfl, rfl⟩⟩

theorem witness_HeaderRegistersNotRead_mndec :
    (wordsState v1Words).status.error = false ∧ (wordsState v9BothFaults).status.error = false ∧
      onNextState (exec .mndec (wordsState v1Words)) (fun u => u.status.error) = some false ∧
      onNextState (exec .mndec (wordsState v9BothFaults)) (fun u => u.status.error) = some true := by decide +kernel

theorem witness_LengthRegistersNotRead :
    (∀ a b, Instr.recover 2 ≠ .split a b) ∧ Instr.recover 2 ≠ .encrypt ∧ Instr.recover 2 ≠ .decrypt ∧
      Instr.recover 2 ≠ .mnenc ∧ Instr.recover 2 ≠ .rscreate ∧ Instr.recover 2 ≠ .rsverify ∧ Instr.recover 2 ≠ .mndec := by
  refine ⟨?_, by decide, by decide, by decide, by decide, by decide, by decide⟩
  intro a b h
  cases h

theorem witness_ExpTableIsGeneratorPowers : gfExp 254 = 0xF6 := by decide

theorem witness_LogTableInvertsExp : (0xF6 : Byte) ≠ 0 ∧ (254 : Nat) < 255 ∧ gfExp 254 = 0xF6 := by decide

theorem witness_GfMulFieldLaws : (0x53 : Byte) ≠ 0 ∧ (0xFF : Byte) ≠ 0 := by decide

/-- The shares of the third table of V4. -/
def v4Shares : List (Byte × List Byte) := [(0, [0xAA]), (1, [0xBB]), (254, [0xCC])]

theorem witness_InterpolateIsLagrange :
    v4Shares ≠ [] ∧ SharesOk v4Shares 1 ∧ (∃ p ∈ v4Shares, p.1 = 254) ∧ (∀ p ∈ v4Shares, p.1 ≠ 255) ∧ 0 < 1 := by decide

/-- Slots above 15 do not exist, so a claim over all slots is one over the sixteen. -/
theorem slots_of_sixteen {s : State} {q : Nat → Prop} (h : ∀ c, c < 16 → s.svalid.getLsbD c = true → q c) :
    ∀ c, SlotValid s c → q c := fun c hc => h c hc.1 hc.2

theorem witness_CheckSharesOrder_empty : ∀ a, ¬ SlotValid State.reset a :=
  slots_of_sixteen (q := fun _ => False) (by decide)

/-- A slot of length 0 after a good one. -/
def zeroSlotTable : State := tableState [(0, 1, [1]), (15, 2, [])]

theorem witness_CheckSharesOrder_length :
    SlotValid zeroSlotTable 15 ∧ ¬ SlotLenOk zeroSlotTable 15 ∧
      ∀ b, b < 15 → SlotValid zeroSlotTable b → SlotLenOk zeroSlotTable b := by decide +kernel

/-- Two lengths (V4). -/
def twoLengthTable : State := tableState [(0, 1, [1, 2]), (1, 2, [3, 4, 5])]

theorem witness_CheckSharesOrder_inconsistent :
    SlotValid twoLengthTable 0 ∧ (∀ c, c < 0 → ¬ SlotValid twoLengthTable c) ∧ SlotValid twoLengthTable 1 ∧
      slotLen twoLengthTable 1 ≠ slotLen twoLengthTable 0 ∧
      (∀ c, c < 1 → SlotValid twoLengthTable c → slotLen twoLengthTable c = slotLen twoLengthTable 0) ∧
      ∀ c, SlotValid twoLengthTable c → SlotLenOk twoLengthTable c := by
  refine ⟨by decide, by decide, by decide, by decide, by decide, slots_of_sixteen ?_⟩
  decide +kernel

/-- Three equal coordinates (V4). -/
def duplicateTable : State := tableState [(1, 9, [1]), (3, 9, [2]), (4, 9, [3])]

theorem witness_CheckSharesOrder_duplicate :
    SlotValid duplicateTable 1 ∧ SlotValid duplicateTable 3 ∧ 1 < 3 ∧ slotX duplicateTable 1 = slotX duplicateTable 3 ∧
      (∀ c d, SlotValid duplicateTable c → SlotValid duplicateTable d → c < d →
        slotX duplicateTable c = slotX duplicateTable d → 1 < c ∨ (1 = c ∧ 3 ≤ d)) ∧
      ∀ c, SlotValid duplicateTable c →
        SlotLenOk duplicateTable c ∧ slotLen duplicateTable c = slotLen duplicateTable 1 := by
  refine ⟨by decide, by decide, by decide, by decide, fun c d hc hd => ?_, slots_of_sixteen ?_⟩
  · have h : ∀ c ∈ [1, 3, 4], ∀ d ∈ [1, 3, 4], c < d → 1 < c ∨ (1 = c ∧ 3 ≤ d) := by decide
    have hv : ∀ c, SlotValid duplicateTable c → c ∈ [1, 3, 4] := slots_of_sixteen (by decide +kernel)
    exact fun hcd _ => h c (hv c hc) d (hv d hd) hcd
  · decide +kernel

theorem witness_InterpFollowsItsRule :
    checkShares State.reset = .error ⟨.badShareCount, 0⟩ ∧ TableOk v4Table 3 := by
  refine ⟨rfl, ?_⟩
  decide +kernel

theorem witness_InterpolateIgnoresOrder : SharesOk v4Shares 1 ∧ v4Shares.Perm v4Shares.reverse :=
  ⟨by decide, (List.reverse_perm v4Shares).symm⟩

theorem witness_PointsDetermineThePolynomial :
    v4Shares ≠ [] ∧ SharesOk v4Shares 1 ∧ ([254, 7, 8, 255] : List Byte).Nodup ∧
      v4Shares.length ≤ ([254, 7, 8, 255] : List Byte).length := by decide

theorem witness_BasisValuesSumToOne :
    v4Shares ≠ [] ∧ (v4Shares.map Prod.fst).Nodup ∧ ∀ p ∈ v4Shares, p.1 ≠ 255 := by decide

theorem witness_SplitFollowsItsRule :
    Config.ParamsOk State.reset.params ∧ (1 : Nat) < 2 ∧ (17 : Nat) ≠ 0 ∧ (17 : Nat) ≤ 17 ∧ 16 < (17 : Nat) ∧
      State.reset.len.toNat = 0 ∧
      State.reset.params.maxLen < ({ State.reset with len := 257 } : State).len.toNat ∧
      (secretState [1, 2, 3]).len.toNat < 4 ∧ (secretState [1, 2, 3]).len.toNat ≠ 0 ∧
      (secretState [1]).len.toNat ≠ 0 ∧ (secretState [1]).len.toNat ≤ (secretState [1]).params.maxLen ∧
      (secretState [1, 2, 3, 4]).len.toNat ≤ (secretState [1, 2, 3, 4]).params.maxLen ∧
      4 ≤ (secretState [1, 2, 3, 4]).len.toNat ∧ (255 : Nat) < 256 := by decide

theorem witness_SplitTakesFreshDraws :
    (2 : Nat) ≤ 16 ∧ (16 : Nat) ≤ 16 ∧ (secretState [1, 2, 3, 4]).len.toNat ≠ 0 ∧
      (secretState [1, 2, 3, 4]).len.toNat ≤ (secretState [1, 2, 3, 4]).params.maxLen ∧ 1 < (2 : Nat) ∧
      4 ≤ (secretState [1, 2, 3, 4]).len.toNat := by decide

/-- Two slots of length 3. -/
def shortTable : State := tableState [(0, 1, [1, 2, 3]), (15, 2, [4, 5, 6])]

theorem witness_RecoverFollowsItsRule_count :
    TableOk shortTable 3 ∧ (shareList shortTable 3).length ≠ 1 ∧ 3 < 4 := by decide +kernel

theorem witness_RecoverFollowsItsRule_one :
    checkShares State.reset = .error ⟨.badShareCount, 0⟩ ∧
      TableOk { shortTable with svalid := 0x8000 } 3 ∧ SlotValid { shortTable with svalid := 0x8000 } 15 ∧
      ∀ b, SlotValid { shortTable with svalid := 0x8000 } b → b = 15 := by
  refine ⟨rfl, by decide +kernel, by decide, slots_of_sixteen ?_⟩
  decide +kernel

/-- A split of `01020304` into two shares (V5): the digest alone is interpolated at 254. -/
def fourByteTable : State := tableState [(0, 0, [0x18, 0x21, 0xB4, 0xE7]), (1, 1, [0x3F, 0xA8, 0x14, 0xAD])]

theorem witness_RecoverFollowsItsRule_match :
    TableOk fourByteTable 4 ∧ 1 < 2 ∧ 4 ≤ 4 ∧
      shareDigest ((interpolate (shareList fourByteTable 4) 254).drop 4) (interpolate (shareList fourByteTable 4) 255) =
        (interpolate (shareList fourByteTable 4) 254).take 4 := by decide +kernel

theorem witness_RecoverFollowsItsRule_mismatch :
    TableOk { fourByteTable with svalid := 1 } 4 ∧
      shareDigest ((interpolate (shareList { fourByteTable with svalid := 1 } 4) 254).drop 4)
          (interpolate (shareList { fourByteTable with svalid := 1 } 4) 255) ≠
        (interpolate (shareList { fourByteTable with svalid := 1 } 4) 254).take 4 := by decide +kernel

theorem witness_SplitThenRecover :
    Config.ParamsOk (secretState [1, 2, 3, 4]).params ∧ 4 ≤ (secretState [1, 2, 3, 4]).len.toNat ∧
      (secretState [1, 2, 3, 4]).len.toNat ≤ (secretState [1, 2, 3, 4]).params.maxLen ∧
      (∀ i, (0x8001 : Half).getLsbD i = true → i < 16) ∧
      2 ≤ ((List.range 16).filter fun i => (0x8001 : Half).getLsbD i).length ∧
      ((List.range 16).filter fun i => (0x8000 : Half).getLsbD i).length = 1 := by
  refine ⟨by decide, by decide, by decide, fun i h => ?_, by decide, by decide⟩
  exact BitVec.lt_of_getLsbD h

theorem witness_RecoverSuccessMeansDigestHeld :
    TableOk fourByteTable 4 ∧ fourByteTable.status.error = false ∧
      onNextState (exec (.recover 2) fourByteTable) (fun u => u.status.error) = some false := by decide +kernel

/-- The longest secret, with a passphrase of both extreme characters. -/
def longPassState : State := passState (List.replicate 256 0x5A) [0x20, 0x7E]

theorem witness_EncryptFollowsItsRule :
    ¬ SecretLenOk (secretState (countBytes 14 0)) ∧ ¬ SecretLenOk (secretState (countBytes 17 0)) ∧
      ¬ SecretLenOk { State.reset with len := 258 } ∧
      (SecretLenOk { longPassState with plen := 257 } ∧
        longPassState.params.maxPass < ({ longPassState with plen := 257 } : State).plen.toNat) ∧
      (SecretLenOk (passState (countBytes 16 0) [0x61, 0x7F]) ∧
        (passState (countBytes 16 0) [0x61, 0x7F]).plen.toNat ≤ (passState (countBytes 16 0) [0x61, 0x7F]).params.maxPass ∧
        ¬ Printable (Memory.read (passState (countBytes 16 0) [0x61, 0x7F]).pass 1) ∧
        ∀ j, j < 1 → Printable (Memory.read (passState (countBytes 16 0) [0x61, 0x7F]).pass j)) ∧
      (SecretLenOk longPassState ∧ longPassState.plen.toNat ≤ longPassState.params.maxPass ∧
        ∀ i, i < longPassState.plen.toNat → Printable (Memory.read longPassState.pass i)) := by decide +kernel

theorem witness_DecryptFollowsItsRule :
    ¬ SecretLenOk State.reset ∧ SecretLenOk longPassState ∧
      longPassState.params.maxPass < ({ longPassState with plen := 257 } : State).plen.toNat ∧
      longPassState.plen.toNat ≤ longPassState.params.maxPass := by decide +kernel

theorem witness_CryptInverse :
    v1Value.length % 2 = 0 ∧ SecretLenOk longPassState ∧ longPassState.plen.toNat ≤ longPassState.params.maxPass ∧
      (∀ i, i < longPassState.plen.toNat → Printable (Memory.read longPassState.pass i)) ∧
      ∀ t : State, Memory.readList t.out 0 256 = Memory.readList t.out 0 256 :=
  ⟨rfl, by decide +kernel, by decide, by decide +kernel, fun _ => rfl⟩

theorem witness_SingleWordErrorDetected :
    19 < v1Words.length ∧ rsVerify v1Words 1 = true ∧ (196 : MnWord) ≠ v1Words.getD 19 0 := by decide +kernel

theorem witness_RscreateFollowsItsRule :
    Config.ParamsOk State.reset.params ∧
      State.reset.params.maxWords < ({ State.reset with wlen := 254 } : State).wlen.toNat + 3 ∧
      ({ State.reset with wlen := 253 } : State).wlen.toNat + 3 ≤ State.reset.params.maxWords := by decide

theorem witness_RsverifyFollowsItsRule :
    State.reset.params.maxWords < ({ State.reset with wlen := 257 } : State).wlen.toNat ∧
      ({ State.reset with wlen := 256 } : State).wlen.toNat ≤ State.reset.params.maxWords := by decide

theorem witness_HeaderWordsAreTheFortyBitString :
    HeaderOk { id := 0x7FFF, extFlag := 0, itexp := 15, gi := 15, gt := 16, gc := 16, mi := 15, mt := 16 } ∧
      HeaderOk v1Header := by decide

theorem witness_UnpackInvertsPacking : HeaderOk v1Header := by decide

theorem witness_PaddingOfEvenLengths : 256 % 2 = 0 ∧ 0 % 2 = 0 := by decide

/-- A secret of the least length with header registers. -/
def headerState (gt gc mt : BitVec 5) : State :=
  writeHeaderRegs { v1Header with gt := gt, gc := gc, mt := mt } (secretState (countBytes 16 0))

theorem witness_MnencFollowsItsRule :
    Config.ParamsOk State.reset.params ∧ ¬ SecretLenOk State.reset ∧
      (SecretLenOk (headerState 0 1 1) ∧ ¬ FieldOk (headerState 0 1 1).gt) ∧
      (SecretLenOk (headerState 1 17 1) ∧ FieldOk (headerState 1 17 1).gt ∧ ¬ FieldOk (headerState 1 17 1).gc) ∧
      (SecretLenOk (headerState 1 1 17) ∧ FieldOk (headerState 1 1 17).gc ∧ ¬ FieldOk (headerState 1 1 17).mt) ∧
      (SecretLenOk (headerState 16 15 1) ∧ HeaderOk (headerRegs (headerState 16 15 1)) ∧
        (headerState 16 15 1).gc.toNat < (headerState 16 15 1).gt.toNat) ∧
      (SecretLenOk (headerState 16 16 16) ∧ HeaderOk (headerRegs (headerState 16 16 16)) ∧
        (headerState 16 16 16).gt.toNat ≤ (headerState 16 16 16).gc.toNat) := by decide +kernel

/-- Words of 95_test_vectors.md V8 that decode to 18 bytes. -/
def eighteenByteWords : List MnWord :=
  [0, 0, 0, 0, 0, 0, 258, 12, 64, 321, 519] ++ [32, 144, 642, 780, 52, 224, 964, 17, 339, 679, 205]

/-- Those words in a block of the least capacity for bytes. -/
def smallState : State :=
  { wordsState eighteenByteWords with params := { maxLen := 16, maxPass := 0, maxWords := 22 } }

/-- The conditions of `MNDEC` from the checksum on, over words of the default capacity (`k` words, `n` bytes). -/
def mndecFacts (w : List MnWord) : Bool × Nat × Nat × Bool × Bool :=
  (rsVerify w (unpackHeader w).extFlag, 10 * (w.length - 7) % 16, (10 * (w.length - 7) - 10 * (w.length - 7) % 16) / 8,
    decide (intWords ((w.drop 4).take (w.length - 7)) <
      2 ^ (8 * ((10 * (w.length - 7) - 10 * (w.length - 7) % 16) / 8))),
    decide ((unpackHeader w).gt.toNat ≤ (unpackHeader w).gc.toNat))

theorem witness_MndecFollowsItsRule :
    State.reset.params.maxWords < ({ State.reset with wlen := 257 } : State).wlen.toNat ∧
      (wordsState (v1Words.take 19)).wlen.toNat < 20 ∧
      (mndecFacts (v1Words.set 5 259)).1 = false ∧
      mndecFacts (List.replicate 18 0 ++ [33, 784, 516]) = (true, 12, 16, true, true) ∧
      mndecFacts ([0, 0, 0, 0, 256] ++ List.replicate 12 0 ++ [44, 136, 1021]) = (true, 2, 16, false, true) ∧
      mndecFacts ([0, 0, 8, 256] ++ List.replicate 13 0 ++ [496, 480, 4]) = (true, 2, 16, true, false) ∧
      (mndecFacts eighteenByteWords = (true, 6, 18, true, true) ∧ smallState.params.maxLen < 18 ∧
        smallState.wlen.toNat ≤ smallState.params.maxWords ∧ mnemonicWords smallState = eighteenByteWords) ∧
      mndecFacts v1Words = (true, 2, 16, true, true) ∧ 16 ≤ State.reset.params.maxLen ∧
      (∀ w ∈ [v1Words, eighteenByteWords], mnemonicWords (wordsState w) = w) := by decide +kernel

theorem witness_MnencThenMndec :
    Config.ParamsOk (headerState 16 16 16).params ∧ SecretLenOk (headerState 16 16 16) ∧
      HeaderOk (headerRegs (headerState 16 16 16)) ∧
      (headerState 16 16 16).gt.toNat ≤ (headerState 16 16 16).gc.toNat := by decide +kernel

theorem witness_RunReportsTheCommand :
    (Instr.split 255 255).wellFormed = true ∧ State.reset.status.busy = false ∧
      onNextState (exec (.gfexp 1) (issueCommand (encode (.gfexp 1)) State.reset)) (fun t => t.status.error) = some false ∧
      onNextState (exec (.split 255 255) (issueCommand (encode (.split 255 255)) State.reset)) (fun t => t.status.error) =
        some true := by decide

end Sys2Proof.Tests
end

/-!
SUPPORT. Every command: its body, its errors, its writes. `exec` is `completeCommand` of one body per command
(60_exceptions.md R212 to R214); what a body can answer is said once here: the errors it may raise (R210, "Raised by") and
the five shapes of its writes.
-/
section

-- The joined text is checked under a memory limit which the tests above, elaborated in parallel, nearly fill: here one
-- declaration is elaborated at a time.
set_option Elab.async false

namespace Sys2Proof.Machine

/-- The pseudocode of a command: `raise`, or the cleared state with the command's own writes in it (30_encoding.md R62). -/
def commandBody (i : Instr) (s : State) : Except Raise State :=
  match i with
  | .gfmul a b => .ok (writeR0 ((gfMul a b).setWidth 32) (clearResults s))
  | .gfexp k => .ok (writeR0 ((gfExp k.toNat).setWidth 32) (clearResults s))
  | .gflog a => .ok (writeR0 (BitVec.ofNat 32 (gfLog a)) (clearResults s))
  | .interp x => interpBody x s
  | .split t n => splitBody t n s
  | .recover t => recoverBody t s
  | .encrypt => encryptBody s
  | .decrypt => decryptBody s
  | .rscreate => rscreateBody s
  | .rsverify => rsverifyBody s
  | .mnenc => mnencBody s
  | .mndec => mndecBody s

theorem exec_eq_completeCommand (i : Instr) (s : State) : exec i s = completeCommand s (commandBody i s) := by
  cases i <;> rfl

/-- What a next state of a command is: its body's result finished, or the error report. -/
theorem exec_next {i : Instr} {s t : State} (h : exec i s = .next t) :
    (∃ u, commandBody i s = .ok u ∧ t = finishCommand u) ∨ ∃ e, commandBody i s = .error e ∧ t = reportError e s :=
  completeCommand_next (exec_eq_completeCommand i s ▸ h)

/-! ### A check before the rest of a body -/

theorem check_eq_ok {c : Prop} [Decidable c] {e : Raise} {r : Except Raise State} {u : State} :
    (if c then .error e else r) = .ok u ↔ ¬c ∧ r = .ok u := by
  by_cases hc : c <;> simp [hc]

/-- A check goes through a change of the result that keeps what it checks. -/
theorem check_map {c : Prop} [Decidable c] {f : State → State} {e : Raise} {r r' : Except Raise State}
    (h : r' = r.map f) : (if c then .error e else r') = (if c then .error e else r).map f := by
  by_cases hc : c
  · rw [if_pos hc, if_pos hc]; rfl
  · rw [if_neg hc, if_neg hc, h]

/-! ### Errors -/

theorem checkShares_error {s : State} {e : Raise} (h : checkShares s = .error e) :
    e.err ∈ [CmdError.badShareCount, .badLength, .inconsistentShareLength, .duplicateIndex] := by
  unfold checkShares at h
  split at h
  · cases h; simp
  · dsimp only at h
    split at h
    · cases h; simp
    · split at h
      · cases h; simp
      · split at h <;> cases h
        simp

theorem interpBody_error {x : Byte} {s : State} {e : Raise} (h : interpBody x s = .error e) :
    e.err ∈ (Instr.interp x).mayRaise := by
  unfold interpBody at h
  split at h
  · next e' he => cases h; exact checkShares_error he
  · cases h

theorem splitBody_error {t n : Nat} {s : State} {e : Raise} (h : splitBody t n s = .error e) :
    e.err ∈ (Instr.split t n).mayRaise := by
  unfold splitBody at h
  (repeat' split at h) <;> cases h <;> simp [Instr.mayRaise]

theorem recoverBody_error {t : Nat} {s : State} {e : Raise} (h : recoverBody t s = .error e) :
    e.err ∈ (Instr.recover t).mayRaise := by
  unfold recoverBody at h
  split at h
  · cases h; simp [Instr.mayRaise]
  · split at h
    · next e' he =>
      cases h
      exact List.mem_cons_of_mem _ (List.mem_append_left [CmdError.digestMismatch] (checkShares_error he))
    · (repeat' split at h) <;> cases h <;> simp [Instr.mayRaise]

theorem encryptBody_error {s : State} {e : Raise} (h : encryptBody s = .error e) : e.err ∈ Instr.encrypt.mayRaise := by
  unfold encryptBody at h
  (repeat' split at h) <;> cases h <;> simp [Instr.mayRaise]

theorem mnencBody_error {s : State} {e : Raise} (h : mnencBody s = .error e) : e.err ∈ Instr.mnenc.mayRaise := by
  unfold mnencBody at h
  (repeat' split at h) <;> cases h <;> simp [Instr.mayRaise]

theorem mndecBody_error {s : State} {e : Raise} (h : mndecBody s = .error e) : e.err ∈ Instr.mndec.mayRaise := by
  unfold mndecBody at h
  dsimp only at h
  (repeat' split at h) <;> cases h <;> simp [Instr.mayRaise]

/-- A command raises only the errors 60_exceptions.md R210 lists for it. -/
theorem commandBody_error {i : Instr} {s : State} {e : Raise} (h : commandBody i s = .error e) : e.err ∈ i.mayRaise := by
  cases i with
  | gfmul a b => cases h
  | gfexp k => cases h
  | gflog a => cases h
  | interp x => exact interpBody_error h
  | split t n => exact splitBody_error h
  | recover t => exact recoverBody_error h
  | encrypt => exact encryptBody_error h
  | decrypt =>
    simp only [commandBody, decryptBody] at h
    (repeat' split at h) <;> cases h <;> simp [Instr.mayRaise]
  | rscreate =>
    simp only [commandBody, rscreateBody] at h
    split at h <;> cases h
    simp [Instr.mayRaise]
  | rsverify =>
    simp only [commandBody, rsverifyBody] at h
    split at h <;> cases h
    simp [Instr.mayRaise]
  | mnenc => exact mnencBody_error h
  | mndec => exact mndecBody_error h

theorem mayRaise_subset_blockErrors (i : Instr) : i.mayRaise ⊆ blockErrors := by
  cases i <;> simp only [Instr.mayRaise] <;> decide

/-! ### Lengths of the sequences the commands write -/

/-- The share list of a table that passes `CheckShares` (41_interp.md R101). -/
theorem checkShares_ok {s : State} {P : List (Byte × List Byte)} {n : Nat} (h : checkShares s = .ok (P, n)) :
    P = sharesOf s (validSlots s) n ∧ n ≤ s.params.maxLen := by
  unfold checkShares at h
  split at h
  · cases h
  · next s0 rest hv =>
    dsimp only at h
    split at h
    · cases h
    · next hlen =>
      split at h
      · cases h
      · split at h <;> cases h
        rw [hv]
        have h0 := List.find?_eq_none.mp hlen s0 (by simp)
        simp only [Bool.or_eq_true, decide_eq_true_eq, not_or, Nat.not_lt] at h0
        exact ⟨rfl, h0.2⟩

theorem length_of_mem_sharesOf {s : State} {slots : List Nat} {n : Nat} {p : Byte × List Byte}
    (h : p ∈ sharesOf s slots n) : p.2.length = n := by
  obtain ⟨i, -, rfl⟩ := List.mem_map.mp h
  exact length_slotData s i n

/-- An interpolation is no longer than the longest of its points' vectors. -/
theorem length_interpolate_le {P : List (Byte × List Byte)} {n : Nat} (h : ∀ p ∈ P, p.2.length ≤ n) (x : Byte) :
    (interpolate P x).length ≤ n := by
  unfold interpolate
  split
  · next p hp => exact h p (List.mem_of_find?_eq_some hp)
  · cases P with
    | nil => simp [shareLength]
    | cons p rest => simpa [shareLength] using h p (by simp)

theorem length_interpolate_checkShares {s : State} {P : List (Byte × List Byte)} {n : Nat}
    (h : checkShares s = .ok (P, n)) (x : Byte) : (interpolate P x).length ≤ s.params.maxLen := by
  obtain ⟨rfl, hn⟩ := checkShares_ok h
  exact length_interpolate_le (fun p hp => (length_of_mem_sharesOf hp).symm ▸ hn) x

/-- A round swaps the halves, so their total length does not grow. -/
theorem length_feistelRound_le (pass salt : List Byte) (c h : Nat) (lr : List Byte × List Byte) (r : Byte) :
    (feistelRound pass salt c h lr r).1.length + (feistelRound pass salt c h lr r).2.length ≤
      lr.1.length + lr.2.length := by
  simp only [feistelRound, length_xorBytes]
  omega

theorem length_feistelRounds_le (pass salt : List Byte) (c h : Nat) (rs : List Byte) (lr : List Byte × List Byte) :
    (rs.foldl (feistelRound pass salt c h) lr).1.length + (rs.foldl (feistelRound pass salt c h) lr).2.length ≤
      lr.1.length + lr.2.length := by
  induction rs generalizing lr with
  | nil => exact Nat.le_refl _
  | cons r rest ih => exact Nat.le_trans (ih _) (length_feistelRound_le pass salt c h lr r)

theorem length_crypt_le (secret pass : List Byte) (e : BitVec 4) (id : BitVec 15) (ext : BitVec 1) (enc : Bool) :
    (crypt secret pass e id ext enc).length ≤ secret.length := by
  have h := length_feistelRounds_le pass (feistelSalt id ext) (roundIterations e.toNat) (secret.length / 2)
    (roundOrder enc) (secret.take (secret.length / 2), secret.drop (secret.length / 2))
  simp only [List.length_take, List.length_drop] at h
  simp only [crypt, List.length_append]
  omega

@[simp] theorem length_rsCreate (data : List MnWord) (ext : BitVec 1) : (rsCreate data ext).length = 3 := rfl

theorem length_mnemonicBody (h : Header) (v : List Byte) :
    (mnemonicBody h v).length = 4 + (8 * v.length + 9) / 10 := by
  simp only [mnemonicBody, List.length_append, valueWords, length_wordsBE, valueWordCount]
  rfl

theorem length_digestShare_le {pad secret : List Byte} {n : Nat} (h : pad.length + 4 ≤ n) :
    (digestShare pad secret).length ≤ n := by
  simp only [digestShare, shareDigest, Config.digestLength, List.length_append, List.length_take]
  omega

theorem length_splitShares {n : Nat} {secret pad : List Byte} {rnd : List (List Byte)} (h : rnd.length ≤ n) :
    (splitShares n secret pad rnd).length = n := by
  simp [splitShares]
  omega

/-- The points a `SPLIT` interpolates over are no longer than the secret (42_shamir.md R113, R115). -/
theorem length_of_mem_splitBase {secret pad : List Byte} {rnd : List (List Byte)} {n : Nat} (hs : secret.length ≤ n)
    (hp : pad.length + 4 ≤ n) (hr : ∀ v ∈ rnd, v.length ≤ n) {p : Byte × List Byte} (h : p ∈ splitBase secret pad rnd) :
    p.2.length ≤ n := by
  simp only [splitBase, List.mem_append, List.mem_map, List.mem_range, List.mem_cons, List.not_mem_nil, or_false] at h
  rcases h with ⟨i, hi, rfl⟩ | rfl | rfl
  · simpa [hi] using hr _ (List.getElem_mem hi)
  · exact length_digestShare_le hp
  · exact hs

theorem length_of_mem_splitShares {n len : Nat} {secret pad : List Byte} {rnd : List (List Byte)}
    (hs : secret.length ≤ len) (hp : pad.length + 4 ≤ len) (hr : ∀ v ∈ rnd, v.length ≤ len) {v : List Byte}
    (h : v ∈ splitShares n secret pad rnd) : v.length ≤ len := by
  simp only [splitShares, List.mem_append, List.mem_map] at h
  rcases h with h | ⟨i, -, rfl⟩
  · exact hr v h
  · exact length_interpolate_le (fun p hp' => length_of_mem_splitBase hs hp hr hp') _

theorem length_of_mem_drawnShares {t : Nat} {s : State} {v : List Byte} (h : v ∈ drawnShares t s) :
    v.length = s.len.toNat := by
  obtain ⟨i, -, rfl⟩ := List.mem_map.mp h
  exact length_drawBytes s _ _

theorem length_le_of_not_badSecretLength {s : State} (h : ¬ badSecretLength s = true) :
    s.len.toNat ≤ s.params.maxLen := by
  simp only [badSecretLength, Bool.or_eq_true, decide_eq_true_eq, not_or] at h
  omega

/-! ### Writes -/

/-- What a body without error leaves, `CommandResult s i u`: the cleared state with the command's writes, which are of one
of five shapes (10_state.md R20, R21, R24, R26, 45_mnemonic.md R158). -/
inductive CommandResult (s : State) : Instr → State → Prop
  /-- A value in `R0`: the GF(256) commands and `RSVERIFY`. -/
  | scalar {i : Instr} (v : Word)
      (hi : (∃ a b, i = .gfmul a b) ∨ (∃ k, i = .gfexp k) ∨ (∃ a, i = .gflog a) ∨ i = .rsverify) :
      CommandResult s i (writeR0 v (clearResults s))
  /-- Bytes in `OUT`: `INTERP`, `RECOVER`, `ENCRYPT`, `DECRYPT`. -/
  | bytes {i : Instr} (bs : List Byte) (hlen : bs.length ≤ s.params.maxLen)
      (hi : (∃ x, i = .interp x) ∨ (∃ t, i = .recover t) ∨ i = .encrypt ∨ i = .decrypt) :
      CommandResult s i (writeOut bs (clearResults s))
  /-- Words in `WORDS`: `RSCREATE`, `MNENC`. -/
  | words {i : Instr} (base : Nat) (ws : List MnWord)
      (hlen : Config.ParamsOk s.params → base + ws.length ≤ s.params.maxWords) (hi : i = .rscreate ∨ i = .mnenc) :
      CommandResult s i (writeWords base ws (clearResults s))
  /-- Bytes in `OUT` and the header registers: `MNDEC`. -/
  | header (h : Header) (bs : List Byte) (hlen : bs.length ≤ s.params.maxLen) :
      CommandResult s .mndec (writeHeaderRegs h (writeOut bs (clearResults s)))
  /-- The share table, and the model's draw counter (log entry 4): `SPLIT`. -/
  | table {t n : Nat} (shares : List (List Byte)) (len serial : Nat) (hcount : shares.length ≤ Config.maxShareCount)
      (hshare : ∀ v ∈ shares, v.length ≤ s.params.maxLen) :
      CommandResult s (.split t n) { writeShareTable shares len (clearResults s) with drawSerial := serial }

theorem interpBody_result {x : Byte} {s u : State} (h : interpBody x s = .ok u) : CommandResult s (.interp x) u := by
  unfold interpBody at h
  split at h <;> cases h
  next P n hP => exact .bytes _ (length_interpolate_checkShares hP x) (.inl ⟨x, rfl⟩)

theorem recoverBody_result {t : Nat} {s u : State} (h : recoverBody t s = .ok u) : CommandResult s (.recover t) u := by
  unfold recoverBody at h
  split at h
  · cases h
  · split at h
    · cases h
    · next P n hP =>
      split at h
      · split at h <;> cases h
        next p =>
        obtain ⟨hp, hn⟩ := checkShares_ok hP
        have hlen : p.2.length = n := length_of_mem_sharesOf (hp ▸ List.mem_singleton_self p)
        exact .bytes _ (hlen.symm ▸ hn) (.inr (.inl ⟨t, rfl⟩))
      · obtain ⟨-, h⟩ := check_eq_ok.mp h
        split at h <;> cases h
        exact .bytes _ (length_interpolate_checkShares hP secretIndex) (.inr (.inl ⟨t, rfl⟩))

/-- The result of `ENCRYPT` and `DECRYPT`, for a secret whose length passed the check (43_feistel.md R132, R133). -/
theorem length_cryptResult_le {s : State} (h : ¬ badSecretLength s = true) (enc : Bool) :
    (crypt (secretBytes s) (passBytes s) s.itexp s.id s.extFlag enc).length ≤ s.params.maxLen := by
  refine Nat.le_trans (length_crypt_le ..) ?_
  rw [length_secretBytes]
  exact length_le_of_not_badSecretLength h

theorem encryptBody_result {s u : State} (h : encryptBody s = .ok u) : CommandResult s .encrypt u := by
  unfold encryptBody at h
  obtain ⟨hbad, h⟩ := check_eq_ok.mp h
  obtain ⟨-, h⟩ := check_eq_ok.mp h
  split at h <;> cases h
  exact .bytes _ (length_cryptResult_le hbad true) (.inr (.inr (.inl rfl)))

theorem decryptBody_result {s u : State} (h : decryptBody s = .ok u) : CommandResult s .decrypt u := by
  unfold decryptBody at h
  obtain ⟨hbad, h⟩ := check_eq_ok.mp h
  obtain ⟨-, h⟩ := check_eq_ok.mp h
  cases h
  exact .bytes _ (length_cryptResult_le hbad false) (.inr (.inr (.inr rfl)))

theorem rscreateBody_result {s u : State} (h : rscreateBody s = .ok u) : CommandResult s .rscreate u := by
  unfold rscreateBody at h
  obtain ⟨hbad, h⟩ := check_eq_ok.mp h
  cases h
  exact .words _ _ (fun _ => by rw [length_rsCreate]; omega) (.inl rfl)

theorem rsverifyBody_result {s u : State} (h : rsverifyBody s = .ok u) : CommandResult s .rsverify u := by
  unfold rsverifyBody at h
  obtain ⟨-, h⟩ := check_eq_ok.mp h
  cases h
  exact .scalar _ (.inr (.inr (.inr rfl)))

theorem mnencBody_result {s u : State} (h : mnencBody s = .ok u) : CommandResult s .mnenc u := by
  unfold mnencBody at h
  simp only [check_eq_ok] at h
  obtain ⟨hbad, -, -, -, -, h⟩ := h
  cases h
  refine .words _ _ (fun hp => ?_) (.inr rfl)
  have hlen := length_le_of_not_badSecretLength hbad
  simp only [List.length_append, length_rsCreate, length_mnemonicBody, length_secretBytes]
  obtain ⟨-, -, -, -, hwords, -⟩ := hp
  omega

theorem mndecBody_result {s u : State} (h : mndecBody s = .ok u) : CommandResult s .mndec u := by
  unfold mndecBody at h
  simp only [check_eq_ok] at h
  obtain ⟨-, -, -, -, -, -, hlen, h⟩ := h
  cases h
  exact .header _ _ (by rw [length_bytesBE]; omega)

theorem splitBody_result {t n : Nat} {s u : State} (h : splitBody t n s = .ok u) : CommandResult s (.split t n) u := by
  unfold splitBody at h
  obtain ⟨hthr, h⟩ := check_eq_ok.mp h
  obtain ⟨hcount, h⟩ := check_eq_ok.mp h
  obtain ⟨hlen, h⟩ := check_eq_ok.mp h
  split at h
  · cases h
    refine .table (List.replicate n (secretBytes s)) s.len.toNat s.drawSerial ?_ fun v hv => ?_
    · rw [List.length_replicate]; omega
    · rw [List.eq_of_mem_replicate hv, length_secretBytes]; omega
  · obtain ⟨hdig, h⟩ := check_eq_ok.mp h
    cases h
    have hrnd : (drawnShares t s).length = t - 2 := by simp [drawnShares]
    have hpad : (drawnPad s).length = s.len.toNat - 4 := length_drawBytes ..
    simp only [Config.digestLength] at hdig
    refine .table _ _ _ ?_ fun v hv => ?_
    · rw [length_splitShares (by omega)]; omega
    · have := length_of_mem_splitShares (len := s.len.toNat) (Nat.le_of_eq (length_secretBytes s)) (by omega)
        (fun v hv => Nat.le_of_eq (length_of_mem_drawnShares hv)) hv
      omega

/-- What a command without error writes. -/
theorem commandBody_result {i : Instr} {s u : State} (h : commandBody i s = .ok u) : CommandResult s i u := by
  cases i with
  | gfmul a b => cases h; exact .scalar _ (.inl ⟨a, b, rfl⟩)
  | gfexp k => cases h; exact .scalar _ (.inr (.inl ⟨k, rfl⟩))
  | gflog a => cases h; exact .scalar _ (.inr (.inr (.inl ⟨a, rfl⟩)))
  | interp x => exact interpBody_result h
  | split t n => exact splitBody_result h
  | recover t => exact recoverBody_result h
  | encrypt => exact encryptBody_result h
  | decrypt => exact decryptBody_result h
  | rscreate => exact rscreateBody_result h
  | rsverify => exact rsverifyBody_result h
  | mnenc => exact mnencBody_result h
  | mndec => exact mndecBody_result h

/-- A command's own writes leave `CMD`, `STATUS`, the report, the lengths `LEN` and `PLEN`, `SEC`, `PASS` and, of the
model's own fields, all but the draw counter as they are. -/
theorem CommandResult.frame {i : Instr} {s u : State} (h : CommandResult s i u) :
    u.params = s.params ∧ u.cmd = s.cmd ∧ u.status = s.status ∧ u.err = s.err ∧ u.info = s.info ∧ u.len = s.len ∧
      u.plen = s.plen ∧ u.sec = s.sec ∧ u.pass = s.pass ∧ u.turns = s.turns ∧ u.rdata = s.rdata := by
  cases h <;> exact ⟨rfl, rfl, rfl, rfl, rfl, rfl, rfl, rfl, rfl, rfl, rfl⟩

end Sys2Proof.Machine

/-! ## The address map

The port's accesses reach the cells of 20_memory.md R41, one per offset. -/
namespace Sys2Proof.Machine

theorem arrayIndex_eq_some_iff {base count a j : Nat} :
    arrayIndex base count a = some j ↔ base ≤ a ∧ a < base + 4 * count ∧ (a - base) / 4 = j := by
  simp [arrayIndex, and_assoc]

theorem arrayIndex_element {base count j : Nat} (hj : j < count) : arrayIndex base count (base + 4 * j) = some j :=
  arrayIndex_eq_some_iff.mpr ⟨by omega, by omega, by omega⟩

theorem arrayIndex_outside {base count a : Nat} (h : a < base ∨ base + 4 * count ≤ a) : arrayIndex base count a = none := by
  rw [arrayIndex, if_neg (by omega)]

/-- The cells of the register file stand in the order of their offsets. -/
theorem registerCells_offset {k : Nat} {c : PortCell} (h : registerCells[k]? = some c) : c.offset = 4 * k := by
  have hall : ∀ k < registerCells.length, registerCells[k]?.map PortCell.offset = some (4 * k) := by decide
  have hk := hall k (List.getElem?_eq_some_iff.mp h).1
  rw [h] at hk
  exact Option.some.inj hk

theorem mapped_of_mem_registerCells {c : PortCell} (h : c ∈ registerCells) (p : Params) : c.Mapped p := by
  simp only [registerCells, List.mem_cons, List.not_mem_nil, or_false] at h
  rcases h with rfl | rfl | rfl | rfl | rfl | rfl | rfl | rfl | rfl | rfl | rfl | rfl | rfl | rfl | rfl | rfl | rfl | rfl <;>
    exact trivial

theorem cellAt_misaligned {p : Params} {addr : Offset} (h : addr.toNat % 4 ≠ 0) : cellAt p addr = none := by
  simp [cellAt, h]

/-- The cell at an offset exists and has that offset. -/
theorem cellAt_sound {p : Params} {addr : Offset} {c : PortCell} (h : cellAt p addr = some c) :
    c.Mapped p ∧ c.offset = addr.toNat := by
  have hlt := addr.isLt
  unfold cellAt at h
  dsimp only at h
  split at h
  · cases h
  split at h
  · have hoff := registerCells_offset h
    exact ⟨mapped_of_mem_registerCells (List.mem_of_getElem? h) p, by omega⟩
  split at h
  · split at h <;> cases h
    next hj => exact ⟨⟨by omega, hj⟩, by simp only [PortCell.offset]; omega⟩
  · simp only [Option.or_eq_some_iff, Option.map_eq_some_iff, arrayIndex_eq_some_iff] at h
    rcases h with ⟨j, ⟨h1, h2, h3⟩, rfl⟩ | ⟨-, ⟨j, ⟨h1, h2, h3⟩, rfl⟩ | ⟨-, ⟨j, ⟨h1, h2, h3⟩, rfl⟩ |
      ⟨-, ⟨j, ⟨h1, h2, h3⟩, rfl⟩ | ⟨-, ⟨j, ⟨h1, h2, h3⟩, rfl⟩ | ⟨-, j, ⟨h1, h2, h3⟩, rfl⟩⟩⟩⟩⟩ <;>
    simp only [PortCell.Mapped, PortCell.offset] <;> omega

/-- Every cell that exists stands at its offset (20_memory.md R41), for legal capacities. -/
theorem cellAt_complete {p : Params} {addr : Offset} {c : PortCell} (hp : Config.ParamsOk p) (hm : c.Mapped p)
    (ho : c.offset = addr.toNat) : cellAt p addr = some c := by
  obtain ⟨-, -, hlen, hpass, -, hwords⟩ := hp
  unfold cellAt
  rw [← ho]
  cases c with
  | sdata i j =>
    dsimp only [PortCell.Mapped, PortCell.offset] at hm ⊢
    have hj : (0x4000 + 0x400 * i + 4 * j - 0x4000) % 0x400 / 4 = j := by omega
    have hi : (0x4000 + 0x400 * i + 4 * j - 0x4000) / 0x400 = i := by omega
    rw [if_neg (by omega), if_neg (by omega), if_pos (by omega), hj, hi, if_pos hm.2]
  | sx j | slen j | sec j | pass j | words j | out j =>
    dsimp only [PortCell.Mapped, PortCell.offset] at hm ⊢
    rw [if_neg (by omega), if_neg (by omega), if_neg (by omega), arrayIndex_element hm]
    simp (disch := omega) only [arrayIndex_outside, Option.map_none, Option.none_or, Option.map_some, Option.some_or]
  | _ => rfl

theorem cellAt_eq_some_iff {p : Params} (hp : Config.ParamsOk p) (addr : Offset) (c : PortCell) :
    cellAt p addr = some c ↔ c.Mapped p ∧ c.offset = addr.toNat :=
  ⟨cellAt_sound, fun h => cellAt_complete hp h.1 h.2⟩

theorem cellAt_eq_status_iff (p : Params) (addr : Offset) : cellAt p addr = some .status ↔ addr = 0x0004 := by
  constructor
  · intro h
    exact BitVec.eq_of_toNat_eq (cellAt_sound h).2.symm
  · rintro rfl
    rfl

theorem reachedCell_eq_some_iff {p : Params} {addr : Offset} {size : Nat} {c : PortCell} :
    reachedCell p addr size = some c ↔ size = 4 ∧ cellAt p addr = some c := by
  rw [reachedCell, accessSize, Option.ite_none_right_eq_some]

theorem reachedCell_eq_status_iff {p : Params} {addr : Offset} {size : Nat} :
    reachedCell p addr size = some .status ↔ addr = 0x0004 ∧ size = 4 := by
  rw [reachedCell_eq_some_iff, cellAt_eq_status_iff, and_comm]

/-- The cell an accepted access reaches exists. -/
theorem mapped_of_reachedCell {p : Params} {addr : Offset} {size : Nat} {c : PortCell}
    (h : reachedCell p addr size = some c) : c.Mapped p :=
  (cellAt_sound (reachedCell_eq_some_iff.mp h).2).1

theorem reachedCell_eq_none_iff {p : Params} (hp : Config.ParamsOk p) {addr : Offset} {size : Nat} :
    reachedCell p addr size = none ↔
      size ≠ 4 ∨ addr.toNat % 4 ≠ 0 ∨ ∀ c : PortCell, c.Mapped p → c.offset ≠ addr.toNat := by
  simp only [Option.eq_none_iff_forall_ne_some, ne_eq, reachedCell_eq_some_iff, not_and]
  constructor
  · intro h
    by_cases hs : size = 4
    · exact .inr (.inr fun c hm ho => h c hs (cellAt_complete hp hm ho))
    · exact .inl hs
  · rintro (h | h | h) c hs hc
    · exact h hs
    · rw [cellAt_misaligned h] at hc; cases hc
    · exact h c (cellAt_sound hc).1 (cellAt_sound hc).2

/-! ### Refused accesses while idle (20_memory.md R46) -/

theorem refusedIdle_read_iff {p : Params} (hp : Config.ParamsOk p) (addr : Offset) (size : Nat) :
    (Access.read addr size).RefusedIdle p ↔ reachedCell p addr size = none := by
  rw [reachedCell_eq_none_iff hp]
  simp [Access.RefusedIdle, Access.addr, Access.bytes]

theorem refusedIdle_write_iff {p : Params} (hp : Config.ParamsOk p) (addr : Offset) (size : Nat) (v : Word) :
    (Access.write addr size v).RefusedIdle p ↔
      ∀ c, reachedCell p addr size = some c → c.writable = true → ¬ v.toNat < 2 ^ c.width := by
  have key : (Access.write addr size v).RefusedIdle p ↔ reachedCell p addr size = none ∨
      ∃ c : PortCell, cellAt p addr = some c ∧ (c.writable = false ∨ 2 ^ c.width ≤ v.toNat) := by
    simp only [Access.RefusedIdle, Access.addr, Access.bytes, reachedCell_eq_none_iff hp, cellAt_eq_some_iff hp,
      Access.write.injEq, true_and, or_assoc, and_assoc]
    simp
  rw [key]
  constructor
  · rintro (h | ⟨c, hc, hbad⟩) c' hc' hw hv
    · rw [h] at hc'; cases hc'
    · cases hc.symm.trans (reachedCell_eq_some_iff.mp hc').2
      rcases hbad with hbad | hbad
      · rw [hw] at hbad; cases hbad
      · omega
  · intro h
    cases hc : reachedCell p addr size with
    | none => exact .inl rfl
    | some c =>
      refine .inr ⟨c, (reachedCell_eq_some_iff.mp hc).2, ?_⟩
      cases hw : c.writable
      · exact .inl rfl
      · exact .inr (Nat.not_lt.mp (h c hc hw))

end Sys2Proof.Machine

/-! ## The invariant

`Inv` holds at reset, and the turn of each of the three agents keeps it. The proof goes by the operations a step is made
of: the arrays' part of `Inv` under each named update, then commands, accesses and reset. -/
namespace Sys2Proof.Machine

/-! ### The arrays under the named updates -/

theorem arraysOk_clearResults {s : State} (h : ArraysOk s) : ArraysOk (clearResults s) := by
  obtain ⟨hsx, hslen, hsd, hsdlen, hsec, hpass, hwords, -, -⟩ := h
  exact ⟨hsx, hslen, hsd, hsdlen, hsec, hpass, hwords, Memory.wf_nil _, Nat.zero_le _⟩

theorem arraysOk_writeOut {s : State} (h : ArraysOk s) (hp : Config.ParamsOk s.params) {bs : List Byte}
    (hlen : bs.length ≤ s.params.maxLen) : ArraysOk (writeOut bs s) := by
  obtain ⟨hsx, hslen, hsd, hsdlen, hsec, hpass, hwords, -, -⟩ := h
  obtain ⟨-, -, hmax, -⟩ := hp
  have holen : (BitVec.ofNat 16 bs.length).toNat = bs.length := by
    rw [BitVec.toNat_ofNat, Nat.mod_eq_of_lt (by omega)]
  refine ⟨hsx, hslen, hsd, hsdlen, hsec, hpass, hwords, ?_, ?_⟩
  · rw [writeOut_olen, writeOut_out, holen]
    exact Memory.wf_ofList (by omega)
  · rw [writeOut_olen, holen]
    exact hlen

theorem arraysOk_writeWords {s : State} (h : ArraysOk s) {base : Nat} {ws : List MnWord}
    (hlen : base + ws.length ≤ s.params.maxWords) : ArraysOk (writeWords base ws s) := by
  obtain ⟨hsx, hslen, hsd, hsdlen, hsec, hpass, hwords, hout, holen⟩ := h
  exact ⟨hsx, hslen, hsd, hsdlen, hsec, hpass, Memory.wf_writeList ws hwords hlen, hout, holen⟩

/-- Where the bytes of the slots stand in `SDATA` after a `SPLIT`: slot `i` holds elements from `256 * i` on. -/
theorem mem_slotsData {shares : List (List Byte)} {cap : Nat} (hshare : ∀ v ∈ shares, v.length ≤ cap) {i : Nat}
    {c : Nat × Byte} (hc : c ∈ Memory.ofList (slotKey i 0) (shares.getD i [])) :
    256 * i ≤ c.1 ∧ c.1 < 256 * i + cap ∧ c.2 ≠ 0 := by
  obtain ⟨hlo, hhi, hne⟩ := Memory.mem_ofList hc
  have hlen : (shares.getD i []).length ≤ cap := by
    by_cases hi : i < shares.length
    · simpa [hi] using hshare _ (List.getElem_mem hi)
    · simp [hi]
  simp only [slotKey] at hlo hhi
  exact ⟨by omega, by omega, hne⟩

theorem arraysOk_writeShareTable {s : State} (h : ArraysOk s) (hp : Config.ParamsOk s.params)
    {shares : List (List Byte)} {len : Nat} (hcount : shares.length ≤ Config.maxShareCount)
    (hshare : ∀ v ∈ shares, v.length ≤ s.params.maxLen) : ArraysOk (writeShareTable shares len s) := by
  obtain ⟨-, -, -, -, hsec, hpass, hwords, hout, holen⟩ := h
  obtain ⟨-, -, hmax, -⟩ := hp
  have hdata : ∀ c ∈ (writeShareTable shares len s).sdata, ∃ i < shares.length,
      256 * i ≤ c.1 ∧ c.1 < 256 * i + s.params.maxLen ∧ c.2 ≠ 0 := by
    intro c hc
    obtain ⟨i, hi, hc⟩ := List.mem_flatMap.mp hc
    exact ⟨i, List.mem_range.mp hi, mem_slotsData hshare hc⟩
  have hsorted : (writeShareTable shares len s).sdata.Pairwise fun a b => a.1 < b.1 := by
    rw [writeShareTable_sdata, List.pairwise_flatMap]
    refine ⟨fun i _ => Memory.pairwise_ofList _ _, List.pairwise_lt_range.imp fun {i j} hij a ha b hb => ?_⟩
    have := mem_slotsData hshare ha
    have := mem_slotsData hshare hb
    omega
  simp only [Config.maxShareCount] at hcount
  refine ⟨Memory.wf_ofList ?_, Memory.wf_ofList ?_, ⟨hsorted, fun c hc => ?_⟩, fun c hc => ?_, hsec, hpass, hwords, hout,
    holen⟩
  · simpa [Config.maxShareCount] using hcount
  · simpa [Config.maxShareCount] using hcount
  · obtain ⟨i, hi, hlo, hhi, hne⟩ := hdata c hc
    exact ⟨by rw [Config.maxShareCount]; omega, hne⟩
  · obtain ⟨i, hi, hlo, hhi, hne⟩ := hdata c hc
    rw [writeShareTable_params]
    omega

/-! ### Commands -/

theorem CommandResult.arraysOk {i : Instr} {s u : State} (h : CommandResult s i u) (hp : Config.ParamsOk s.params)
    (ha : ArraysOk s) : ArraysOk u := by
  have hc := arraysOk_clearResults ha
  cases h with
  | scalar v hi => exact hc
  | bytes bs hlen hi => exact arraysOk_writeOut hc hp hlen
  | words base ws hlen hi => exact arraysOk_writeWords hc (hlen hp)
  | header h bs hlen => exact arraysOk_writeOut hc hp hlen
  | table shares len serial hcount hshare => exact arraysOk_writeShareTable hc hp hcount hshare

theorem inv_reportError {s : State} (h : Inv s) {e : Raise} (he : e.err ∈ blockErrors) : Inv (reportError e s) := by
  obtain ⟨hp, ha, -, -⟩ := h
  have hc := arraysOk_clearResults ha
  refine ⟨hp, hc, ?_, ?_, ?_⟩
  · simp [StatusOk]
  · simp
  · exact fun _ => ⟨e.err, he, rfl⟩

theorem inv_exec {i : Instr} {s t : State} (h : Inv s) (ht : exec i s = .next t) : Inv t := by
  rcases exec_next ht with ⟨u, hu, rfl⟩ | ⟨e, he, rfl⟩
  · obtain ⟨hp, ha, -, hr⟩ := h
    have hres := commandBody_result hu
    obtain ⟨hparams, -, hstatus, herr, hinfo, -⟩ := hres.frame
    refine ⟨?_, hres.arraysOk hp ha, ?_, ?_⟩
    · rw [finishCommand_params, hparams]
      exact hp
    · simp [StatusOk]
    · simpa only [ReportOk, finishCommand_status, Status.completed_error, finishCommand_err, finishCommand_info, hstatus,
        herr, hinfo] using hr
  · exact inv_reportError h (mayRaise_subset_blockErrors i (commandBody_error he))

theorem inv_blockStep {s t : State} (h : Inv s) (ht : blockStep s = .next t) : Inv t := by
  rcases blockStep_next ht with ⟨-, rfl⟩ | ⟨-, i, -, hi⟩ | ⟨-, e, -, rfl⟩
  · exact h
  · exact inv_exec h hi
  · exact inv_reportError h (show CmdError.illegalCommand ∈ blockErrors by decide)

/-! ### The host's accesses -/

/-- The sticky bits and the port's answer are no part of the invariant. -/
theorem inv_refuseBusy_iff (s : State) : Inv (refuseBusy s) ↔ Inv s := Iff.rfl

theorem inv_refuseIdle_iff (s : State) : Inv (refuseIdle s) ↔ Inv s := Iff.rfl

theorem inv_answerRead_iff (v : Word) (s : State) : Inv (answerRead v s) ↔ Inv s := Iff.rfl

theorem inv_issueCommand {s : State} (h : Inv s) (c : Word) : Inv (issueCommand c s) := by
  obtain ⟨hp, ha, -, -⟩ := h
  exact ⟨hp, ha, by simp [StatusOk], by simp [ReportOk]⟩

theorem Memory.mem_write {w : Nat} {m : Memory w} {k : Nat} {v : BitVec w} {c : Nat × BitVec w}
    (h : c ∈ Memory.write m k v) : c = (k, v) ∨ c ∈ m := by
  unfold Memory.write at h
  split at h
  · exact .inr (Memory.mem_erase.mp h).1
  · exact (Memory.mem_insert.mp h).imp_right fun h => (Memory.mem_erase.mp h).1

theorem arraysOk_writeCell {s : State} (h : ArraysOk s) (hp : Config.ParamsOk s.params) {c : PortCell}
    (hc : c.Mapped s.params) (v : Word) : ArraysOk (writeCell c v s) := by
  obtain ⟨hsx, hslen, hsd, hsdlen, hsec, hpass, hwords, hout, holen⟩ := h
  cases c with
  | sx i => exact ⟨Memory.wf_write hsx hc _, hslen, hsd, hsdlen, hsec, hpass, hwords, hout, holen⟩
  | slen i => exact ⟨hsx, Memory.wf_write hslen hc _, hsd, hsdlen, hsec, hpass, hwords, hout, holen⟩
  | sec j => exact ⟨hsx, hslen, hsd, hsdlen, Memory.wf_write hsec hc _, hpass, hwords, hout, holen⟩
  | pass j => exact ⟨hsx, hslen, hsd, hsdlen, hsec, Memory.wf_write hpass hc _, hwords, hout, holen⟩
  | words j => exact ⟨hsx, hslen, hsd, hsdlen, hsec, hpass, Memory.wf_write hwords hc _, hout, holen⟩
  | sdata i j =>
    obtain ⟨hi, hj⟩ := hc
    obtain ⟨-, -, hmax, -⟩ := hp
    have hkey : slotKey i j < 256 * Config.maxShareCount := by simp only [slotKey, Config.maxShareCount]; omega
    refine ⟨hsx, hslen, Memory.wf_write hsd hkey _, fun c hc => ?_, hsec, hpass, hwords, hout, holen⟩
    rcases Memory.mem_write hc with rfl | hc
    · show slotKey i j % 256 < s.params.maxLen
      simp only [slotKey]
      omega
    · exact hsdlen c hc
  | _ => exact ⟨hsx, hslen, hsd, hsdlen, hsec, hpass, hwords, hout, holen⟩

/-- A write to a cell other than `CMD` leaves the capacities and the report alone. -/
theorem writeCell_report {c : PortCell} (hc : c ≠ .cmd) (v : Word) (s : State) :
    (writeCell c v s).params = s.params ∧ (writeCell c v s).status = s.status ∧ (writeCell c v s).err = s.err ∧
      (writeCell c v s).info = s.info := by
  cases c with
  | cmd => exact absurd rfl hc
  | _ => exact ⟨rfl, rfl, rfl, rfl⟩

theorem inv_writeCell {s : State} (h : Inv s) {c : PortCell} (hc : c.Mapped s.params) (v : Word) :
    Inv (writeCell c v s) := by
  by_cases hcmd : c = .cmd
  · subst hcmd
    exact inv_issueCommand h v
  · obtain ⟨hp, ha, hs, hr⟩ := h
    obtain ⟨hparams, hstatus, herr, hinfo⟩ := writeCell_report hcmd v s
    refine ⟨by rwa [hparams], arraysOk_writeCell ha hp hc v, ?_, ?_⟩
    · simpa only [StatusOk, hstatus] using hs
    · simpa only [ReportOk, hstatus, herr, hinfo] using hr

theorem inv_hostAccess {s : State} (h : Inv s) (a : Access) : Inv (hostAccess a s) := by
  cases a with
  | read addr size =>
    show Inv (hostRead addr size s)
    rcases hostRead_cases addr size s with ⟨-, -, ht⟩ | ⟨-, -, ht⟩ | ⟨-, c, -, ht⟩ | ⟨-, -, ht⟩ <;> rw [ht]
    · exact (inv_answerRead_iff _ s).mpr h
    · exact (inv_answerRead_iff 0 _).mpr ((inv_refuseBusy_iff s).mpr h)
    · exact (inv_answerRead_iff _ s).mpr h
    · exact (inv_answerRead_iff 0 _).mpr ((inv_refuseIdle_iff s).mpr h)
  | write addr size v =>
    show Inv (hostWrite addr size v s)
    rcases hostWrite_cases addr size v s with ⟨-, ht⟩ | ⟨-, c, hc, -, -, ht⟩ | ⟨-, -, ht⟩ <;> rw [ht]
    · exact (inv_refuseBusy_iff s).mpr h
    · exact inv_writeCell h (mapped_of_reachedCell hc) v
    · exact (inv_refuseIdle_iff s).mpr h

/-! ### Reset and one step -/

theorem inv_resetBlock {s : State} (hp : Config.ParamsOk s.params) : Inv (resetBlock s) := by
  refine ⟨hp, ⟨Memory.wf_nil _, Memory.wf_nil _, Memory.wf_nil _, ?_, Memory.wf_nil _, Memory.wf_nil _, Memory.wf_nil _,
    Memory.wf_nil _, Nat.zero_le _⟩, ?_, ?_⟩
  · intro c hc
    cases hc
  · simp [StatusOk, State.reset]
  · simp [ReportOk, State.reset]

theorem inv_dropTurn_iff (s : State) : Inv (dropTurn s) ↔ Inv s := Iff.rfl

end Sys2Proof.Machine

namespace Sys2Proof.Proofs

open Sys2Proof Sys2Proof.Machine

/-- Settles O18: whoever's turn it is, the host's, the block's or reset's, the turn keeps the invariant. -/
theorem everyStepKeepsInv : Obligations.EveryStepKeepsInv := by
  intro s t h ht
  have hd : Inv (dropTurn s) := (inv_dropTurn_iff s).mpr h
  rcases step_next ht with ⟨a, -, rfl⟩ | ⟨-, rfl⟩ | ⟨-, hb⟩
  · exact inv_hostAccess hd a
  · exact inv_resetBlock hd.1
  · exact inv_blockStep hd hb

/-- Settles O17: the state after reset is its own reset, and its capacities are legal. -/
theorem invHoldsAtReset : Obligations.InvHoldsAtReset :=
  inv_resetBlock (s := State.reset) (by decide)

/-- Settles O14: every register is 0 and every array lists nothing. -/
theorem resetStateIsAllZero : Obligations.ResetStateIsAllZero := by
  intro c
  cases c <;> rfl

end Sys2Proof.Proofs

/-! ## What commands write, and the sticky bits -/
namespace Sys2Proof.Machine

/-! ### The sticky bits under an access -/

@[simp] theorem writeCell_haz (c : PortCell) (v : Word) (s : State) :
    (writeCell c v s).status.haz = s.status.haz := by
  cases c <;> rfl

@[simp] theorem writeCell_badacc (c : PortCell) (v : Word) (s : State) :
    (writeCell c v s).status.badacc = s.status.badacc := by
  cases c <;> rfl

/-- `HAZ` is set by an access while busy that is no 32-bit read of `STATUS` (20_memory.md R45, log entry 7). -/
theorem hostAccess_haz (a : Access) (s : State) :
    (hostAccess a s).status.haz = true ↔
      s.status.haz = true ∨ (s.status.busy = true ∧ a ≠ .read 0x0004 4) := by
  cases a with
  | read addr size =>
    simp only [hostAccess, ne_eq, Access.read.injEq, ← reachedCell_eq_status_iff (p := s.params)]
    rcases hostRead_cases addr size s with ⟨hb, hc, ht⟩ | ⟨hb, hc, ht⟩ | ⟨hb, c, hc, ht⟩ | ⟨hb, hc, ht⟩ <;>
      simp [ht, hb, hc]
  | write addr size v =>
    simp only [hostAccess]
    rcases hostWrite_cases addr size v s with ⟨hb, ht⟩ | ⟨hb, c, -, -, -, ht⟩ | ⟨hb, -, ht⟩ <;> simp [ht, hb]

/-- `BADACC` is set by an access while idle that 20_memory.md R46 refuses. -/
theorem hostAccess_badacc (a : Access) {s : State} (hp : Config.ParamsOk s.params) :
    (hostAccess a s).status.badacc = true ↔
      s.status.badacc = true ∨ (s.status.busy = false ∧ a.RefusedIdle s.params) := by
  cases a with
  | read addr size =>
    rw [hostAccess, refusedIdle_read_iff hp]
    rcases hostRead_cases addr size s with ⟨hb, hc, ht⟩ | ⟨hb, hc, ht⟩ | ⟨hb, c, hc, ht⟩ | ⟨hb, hc, ht⟩ <;>
      simp [ht, hb, hc]
  | write addr size v =>
    rw [hostAccess, refusedIdle_write_iff hp]
    rcases hostWrite_cases addr size v s with ⟨hb, ht⟩ | ⟨hb, c, hc, hw, hv, ht⟩ | ⟨hb, hbad, ht⟩
    · simp [ht, hb]
    · rw [ht, writeCell_badacc]
      exact ⟨.inl, fun h => h.resolve_right fun hr => hr.2 c hc hw hv⟩
    · simp only [ht, hb, refuseIdle_status, Status.withBadacc_badacc, true_and, true_iff]
      exact .inr hbad

/-! ### The turns -/

theorem nextTurn_eq_host_iff {s : State} {a : Access} : nextTurn s = .host a ↔ s.turns.head? = some (.host a) := by
  unfold nextTurn
  cases s.turns <;> simp

theorem nextTurn_eq_reset_iff {s : State} : nextTurn s = .reset ↔ s.turns.head? = some .reset := by
  unfold nextTurn
  cases s.turns <;> simp

/-! ### Commands -/

/-- What no command writes. -/
theorem exec_frame {i : Instr} {s t : State} (h : exec i s = .next t) :
    t.params = s.params ∧ t.cmd = s.cmd ∧ t.status.haz = s.status.haz ∧ t.status.badacc = s.status.badacc ∧
      t.len = s.len ∧ t.plen = s.plen ∧ t.sec = s.sec ∧ t.pass = s.pass ∧ t.turns = s.turns ∧ t.rdata = s.rdata := by
  rcases exec_next h with ⟨u, hu, rfl⟩ | ⟨e, -, rfl⟩
  · obtain ⟨hparams, hcmd, hstatus, -, -, hlen, hplen, hsec, hpass, hturns, hrdata⟩ := (commandBody_result hu).frame
    simp [hparams, hcmd, hstatus, hlen, hplen, hsec, hpass, hturns, hrdata]
  · simp

/-- The block's turn sets neither sticky bit. -/
theorem blockStep_sticky {s t : State} (h : blockStep s = .next t) :
    t.status.haz = s.status.haz ∧ t.status.badacc = s.status.badacc := by
  rcases blockStep_next h with ⟨-, rfl⟩ | ⟨-, i, -, hi⟩ | ⟨-, e, -, rfl⟩
  · exact ⟨rfl, rfl⟩
  · obtain ⟨-, -, hhaz, hbadacc, -⟩ := exec_frame hi
    exact ⟨hhaz, hbadacc⟩
  · exact ⟨rfl, rfl⟩

theorem headerRegs_of_exec {i : Instr} {s t : State} (h : exec i s = .next t) (hi : i ≠ .mndec) :
    headerRegs t = headerRegs s := by
  rcases exec_next h with ⟨u, hu, rfl⟩ | ⟨e, -, rfl⟩
  · cases commandBody_result hu with
    | header h bs hlen => exact absurd rfl hi
    | _ => rfl
  · rfl

theorem words_of_exec {i : Instr} {s t : State} (h : exec i s = .next t) (hc : i ≠ .rscreate) (hm : i ≠ .mnenc) :
    t.words = s.words ∧ t.wlen = s.wlen := by
  rcases exec_next h with ⟨u, hu, rfl⟩ | ⟨e, -, rfl⟩
  · cases commandBody_result hu with
    | words base ws hlen hi => exact (hi.elim hc hm).elim
    | _ => exact ⟨rfl, rfl⟩
  · exact ⟨rfl, rfl⟩

theorem shareTable_of_exec {i : Instr} {s t : State} (h : exec i s = .next t) (hi : ∀ a b, i ≠ .split a b) :
    t.svalid = s.svalid ∧ t.sx = s.sx ∧ t.slen = s.slen ∧ t.sdata = s.sdata ∧ t.drawSerial = s.drawSerial := by
  rcases exec_next h with ⟨u, hu, rfl⟩ | ⟨e, -, rfl⟩
  · cases commandBody_result hu with
    | table shares len serial hcount hshare => exact absurd rfl (hi _ _)
    | _ => exact ⟨rfl, rfl, rfl, rfl, rfl⟩
  · exact ⟨rfl, rfl, rfl, rfl, rfl⟩

/-! ### The draw counter (log entry 4) -/

theorem splitBody_one_drawSerial {n : Nat} {s u : State} (h : splitBody 1 n s = .ok u) : u.drawSerial = s.drawSerial := by
  unfold splitBody at h
  rw [if_pos (rfl : 1 = 1)] at h
  split at h
  · cases h
  · split at h
    · cases h
    · split at h <;> cases h
      rfl

/-- `SPLIT` with a threshold above 1, where every check passes (42_shamir.md R115). -/
theorem splitBody_ok {t n : Nat} {s : State} (ht : 1 < t) (htn : t ≤ n) (hn : n ≤ 16) (hlen : 4 ≤ s.len.toNat)
    (hmax : s.len.toNat ≤ s.params.maxLen) :
    splitBody t n s = .ok
      { writeShareTable (splitShares n (secretBytes s) (drawnPad s) (drawnShares t s)) s.len.toNat (clearResults s)
        with drawSerial := s.drawSerial + 1 } := by
  have hok : ¬(s.len = 0 ∨ s.params.maxLen < s.len.toNat) := by
    rintro (h | h)
    · simp [h] at hlen
    · omega
  unfold splitBody
  rw [if_neg (by omega), if_neg (by rw [Config.maxShareCount]; omega), if_neg hok, if_neg (by omega),
    if_neg (by rw [Config.digestLength]; omega)]

end Sys2Proof.Machine

namespace Sys2Proof.Proofs

open Sys2Proof Sys2Proof.Machine

/-- Settles O19: only an access of the host touches the sticky bits, and `hostAccess` sets them by R45 and R46. -/
theorem stickyBitsSetOnlyByRefusals : Obligations.StickyBitsSetOnlyByRefusals := by
  intro s t ht hreset
  rcases step_next ht with ⟨a, hturn, rfl⟩ | ⟨hturn, -⟩ | ⟨hturn, hb⟩
  · have hhead := nextTurn_eq_host_iff.mp hturn
    refine ⟨?_, fun hp => ?_⟩
    · simp [hostAccess_haz, hhead]
    · simp [hostAccess_badacc a (s := dropTurn s) hp, hhead]
  · exact absurd (nextTurn_eq_reset_iff.mp hturn) hreset
  · have hhost : ∀ a, s.turns.head? ≠ some (.host a) := fun a ha => by
      rw [nextTurn_eq_host_iff.mpr ha] at hturn
      cases hturn
    obtain ⟨hhaz, hbadacc⟩ := blockStep_sticky hb
    simp [hhaz, hbadacc, hhost]

/-- Settles O20: of the five shapes of a command's writes each is the shape of its own commands only. -/
theorem commandsWriteOnlyTheirCells : Obligations.CommandsWriteOnlyTheirCells := by
  intro i s t h
  obtain ⟨hparams, hcmd, hhaz, hbadacc, hlen, hplen, hsec, hpass, hturns, hrdata⟩ := exec_frame h
  exact ⟨hparams, hcmd, hhaz, hbadacc, hlen, hplen, hsec, hpass, hturns, hrdata, headerRegs_of_exec h, words_of_exec h,
    shareTable_of_exec h⟩

/-- Settles O40: the two arms of `SPLIT` that succeed, without draws and with them. -/
theorem splitTakesFreshDraws : Obligations.SplitTakesFreshDraws := by
  intro s t n htn hn _ hmax
  refine ⟨fun u hu => ?_, fun ht hlen => ?_⟩
  · rcases exec_next hu with ⟨v, hv, rfl⟩ | ⟨e, -, rfl⟩
    · have hv : splitBody 1 n s = .ok v := hv
      rw [finishCommand_drawSerial, splitBody_one_drawSerial hv]
    · rfl
  · have hok : commandBody (.split t n) s = .ok _ := splitBody_ok ht htn hn hlen hmax
    exact ⟨_, by rw [exec_eq_completeCommand, hok, completeCommand_ok], rfl⟩

end Sys2Proof.Proofs

/-! ## What commands read

A change of the state that leaves a command's operands alone and commutes with the command's writes goes through the
command: the command then behaves as if the change were made after it. -/
namespace Sys2Proof.Machine

/-- Two states agree in what a command reads (10_state.md R12, R14, "Read by"; R24, R26, R29). -/
def SameOperands (i : Instr) (t s : State) : Prop :=
  match i with
  | .gfmul _ _ | .gfexp _ | .gflog _ => True
  | .interp _ | .recover _ =>
    t.params = s.params ∧ t.svalid = s.svalid ∧ t.sx = s.sx ∧ t.slen = s.slen ∧ t.sdata = s.sdata
  | .split _ _ => t.params = s.params ∧ t.len = s.len ∧ t.sec = s.sec ∧ t.drawSerial = s.drawSerial
  | .encrypt | .decrypt =>
    t.params = s.params ∧ t.len = s.len ∧ t.plen = s.plen ∧ t.sec = s.sec ∧ t.pass = s.pass ∧ t.itexp = s.itexp ∧
      t.id = s.id ∧ t.extFlag = s.extFlag
  | .rscreate | .rsverify => t.params = s.params ∧ t.wlen = s.wlen ∧ t.words = s.words ∧ t.extFlag = s.extFlag
  | .mnenc => t.params = s.params ∧ t.len = s.len ∧ t.sec = s.sec ∧ headerRegs t = headerRegs s
  | .mndec => t.params = s.params ∧ t.wlen = s.wlen ∧ t.words = s.words

/-- `f` changes only cells that neither the common effects nor the results in `R0`, `OUT` and the share table touch. -/
structure CommutesWithResults (f : State → State) : Prop where
  finish : ∀ s, f (finishCommand s) = finishCommand (f s)
  report : ∀ r s, f (reportError r s) = reportError r (f s)
  scalar : ∀ v s, f (writeR0 v (clearResults s)) = writeR0 v (clearResults (f s))
  bytes : ∀ bs s, f (writeOut bs (clearResults s)) = writeOut bs (clearResults (f s))
  table : ∀ shares len s, f (writeShareTable shares len (clearResults s)) = writeShareTable shares len (clearResults (f s))
  tableDraws : ∀ shares len n s, f { writeShareTable shares len (clearResults s) with drawSerial := n } =
    { writeShareTable shares len (clearResults (f s)) with drawSerial := n }

/-- `f` touches neither `WORDS` nor `WLEN`. -/
def CommutesWithWords (f : State → State) : Prop :=
  ∀ base ws s, f (writeWords base ws (clearResults s)) = writeWords base ws (clearResults (f s))

/-- `f` touches no header register. -/
def CommutesWithHeader (f : State → State) : Prop :=
  ∀ h bs s, f (writeHeaderRegs h (writeOut bs (clearResults s))) = writeHeaderRegs h (writeOut bs (clearResults (f s)))

/-- `f` has no part in what command `i` writes. -/
def CommutesWithWrites (f : State → State) (i : Instr) : Prop :=
  CommutesWithResults f ∧ (i = .rscreate ∨ i = .mnenc → CommutesWithWords f) ∧ (i = .mndec → CommutesWithHeader f)

theorem checkShares_congr {t s : State} (hparams : t.params = s.params) (hsvalid : t.svalid = s.svalid)
    (hsx : t.sx = s.sx) (hslen : t.slen = s.slen) (hsdata : t.sdata = s.sdata) : checkShares t = checkShares s := by
  have hv : validSlots t = validSlots s := by simp only [validSlots, hsvalid]
  have hx : slotX t = slotX s := by funext i; simp only [slotX, hsx]
  have hl : slotLen t = slotLen s := by funext i; simp only [slotLen, hslen]
  have hP : sharesOf t = sharesOf s := by funext slots n; simp only [sharesOf, slotData, hx, hsdata]
  unfold checkShares
  simp only [hv, hx, hl, hP, hparams]

section Bodies

variable {f : State → State} {s : State}

theorem interpBody_map (hf : CommutesWithResults f) {x : Byte} (h : SameOperands (.interp x) (f s) s) :
    interpBody x (f s) = (interpBody x s).map f := by
  obtain ⟨hparams, hsvalid, hsx, hslen, hsdata⟩ := h
  unfold interpBody
  rw [checkShares_congr hparams hsvalid hsx hslen hsdata]
  cases checkShares s with
  | error e => rfl
  | ok P => exact congrArg Except.ok (hf.bytes _ s).symm

theorem recoverBody_map (hf : CommutesWithResults f) {t : Nat} (h : SameOperands (.recover t) (f s) s) :
    recoverBody t (f s) = (recoverBody t s).map f := by
  obtain ⟨hparams, hsvalid, hsx, hslen, hsdata⟩ := h
  unfold recoverBody
  rw [checkShares_congr hparams hsvalid hsx hslen hsdata]
  by_cases ht : t = 0
  · simp only [ht, if_true]; rfl
  · simp only [ht, if_false]
    cases checkShares s with
    | error e => rfl
    | ok Pn =>
      obtain ⟨P, n⟩ := Pn
      dsimp only
      by_cases ht1 : t = 1
      · simp only [ht1, if_true]
        split
        · exact congrArg Except.ok (hf.bytes _ s).symm
        · rfl
      · simp only [ht1, if_false]
        refine check_map ?_
        cases digestMatches (interpolate P digestIndex) (interpolate P secretIndex) with
        | true => exact congrArg Except.ok (hf.bytes _ s).symm
        | false => rfl

theorem splitBody_map (hf : CommutesWithResults f) {t n : Nat} (h : SameOperands (.split t n) (f s) s) :
    splitBody t n (f s) = (splitBody t n s).map f := by
  obtain ⟨hparams, hlen, hsec, hserial⟩ := h
  have hsecret : secretBytes (f s) = secretBytes s := by simp only [secretBytes, hsec, hlen]
  have hpad : drawnPad (f s) = drawnPad s := by simp only [drawnPad, drawBytes, hserial, hlen]
  have hrnd : drawnShares t (f s) = drawnShares t s := by simp only [drawnShares, drawBytes, hserial, hlen]
  unfold splitBody
  rw [hparams, hlen, hsecret, hpad, hrnd, hserial]
  refine check_map (check_map (check_map ?_))
  by_cases ht1 : t = 1
  · rw [if_pos ht1, if_pos ht1]
    exact congrArg Except.ok (hf.table _ _ s).symm
  · rw [if_neg ht1, if_neg ht1]
    exact check_map (congrArg Except.ok (hf.tableDraws _ _ _ s).symm)

/-- The operands of `ENCRYPT` and `DECRYPT` go into their result and their checks only. -/
theorem crypt_congr {t s : State} (h : SameOperands .encrypt t s) :
    badSecretLength t = badSecretLength s ∧ firstNotPrintable t = firstNotPrintable s ∧
      crypt (secretBytes t) (passBytes t) t.itexp t.id t.extFlag =
        crypt (secretBytes s) (passBytes s) s.itexp s.id s.extFlag := by
  obtain ⟨hparams, hlen, hplen, hsec, hpass, hitexp, hid, hext⟩ := h
  simp only [badSecretLength, firstNotPrintable, secretBytes, passBytes, hparams, hlen, hplen, hsec, hpass, hitexp, hid,
    hext, and_self]

theorem encryptBody_map (hf : CommutesWithResults f) (h : SameOperands .encrypt (f s) s) :
    encryptBody (f s) = (encryptBody s).map f := by
  obtain ⟨hbad, hfirst, hcrypt⟩ := crypt_congr h
  obtain ⟨hparams, hlen, hplen, -, hpass, -⟩ := h
  unfold encryptBody cryptResult
  rw [hbad, hfirst, hcrypt, hparams, hlen, hplen, hpass]
  refine check_map (check_map ?_)
  cases firstNotPrintable s with
  | some i => rfl
  | none => exact congrArg Except.ok (hf.bytes _ s).symm

theorem decryptBody_map (hf : CommutesWithResults f) (h : SameOperands .decrypt (f s) s) :
    decryptBody (f s) = (decryptBody s).map f := by
  obtain ⟨hbad, -, hcrypt⟩ := crypt_congr h
  obtain ⟨hparams, hlen, hplen, -⟩ := h
  unfold decryptBody cryptResult
  rw [hbad, hcrypt, hparams, hlen, hplen]
  exact check_map (check_map (congrArg Except.ok (hf.bytes _ s).symm))

theorem mnemonicWords_congr {t s : State} (hwlen : t.wlen = s.wlen) (hwords : t.words = s.words) :
    mnemonicWords t = mnemonicWords s := by
  rw [mnemonicWords, mnemonicWords, hwlen, hwords]

theorem rscreateBody_map (hf : CommutesWithWords f) (h : SameOperands .rscreate (f s) s) :
    rscreateBody (f s) = (rscreateBody s).map f := by
  obtain ⟨hparams, hwlen, hwords, hext⟩ := h
  unfold rscreateBody
  rw [mnemonicWords_congr hwlen hwords, hparams, hwlen, hext]
  exact check_map (congrArg Except.ok (hf _ _ s).symm)

theorem rsverifyBody_map (hf : CommutesWithResults f) (h : SameOperands .rsverify (f s) s) :
    rsverifyBody (f s) = (rsverifyBody s).map f := by
  obtain ⟨hparams, hwlen, hwords, hext⟩ := h
  unfold rsverifyBody
  rw [mnemonicWords_congr hwlen hwords, hparams, hwlen, hext]
  exact check_map (congrArg Except.ok (hf.scalar _ s).symm)

theorem mnencBody_map (hf : CommutesWithWords f) (h : SameOperands .mnenc (f s) s) :
    mnencBody (f s) = (mnencBody s).map f := by
  obtain ⟨hparams, hlen, hsec, hregs⟩ := h
  have hbad : badSecretLength (f s) = badSecretLength s := by simp only [badSecretLength, hparams, hlen]
  have hsecret : secretBytes (f s) = secretBytes s := by simp only [secretBytes, hsec, hlen]
  have hext : (f s).extFlag = s.extFlag := congrArg Header.extFlag hregs
  have hgt : (f s).gt = s.gt := congrArg Header.gt hregs
  have hgc : (f s).gc = s.gc := congrArg Header.gc hregs
  have hmt : (f s).mt = s.mt := congrArg Header.mt hregs
  unfold mnencBody
  rw [hbad, hsecret, hregs, hlen, hext, hgt, hgc, hmt]
  dsimp only
  iterate 5 refine check_map ?_
  exact congrArg Except.ok (hf _ _ s).symm

theorem mndecBody_map (hf : CommutesWithHeader f) (h : SameOperands .mndec (f s) s) :
    mndecBody (f s) = (mndecBody s).map f := by
  obtain ⟨hparams, hwlen, hwords⟩ := h
  unfold mndecBody
  rw [mnemonicWords_congr hwlen hwords, hparams, hwlen]
  dsimp only
  iterate 7 refine check_map ?_
  exact congrArg Except.ok (hf _ _ s).symm

theorem commandBody_map {i : Instr} (hf : CommutesWithWrites f i) (h : SameOperands i (f s) s) :
    commandBody i (f s) = (commandBody i s).map f := by
  obtain ⟨hres, hwords, hheader⟩ := hf
  cases i with
  | gfmul a b => exact congrArg Except.ok (hres.scalar _ s).symm
  | gfexp k => exact congrArg Except.ok (hres.scalar _ s).symm
  | gflog a => exact congrArg Except.ok (hres.scalar _ s).symm
  | interp x => exact interpBody_map hres h
  | split t n => exact splitBody_map hres h
  | recover t => exact recoverBody_map hres h
  | encrypt => exact encryptBody_map hres h
  | decrypt => exact decryptBody_map hres h
  | rscreate => exact rscreateBody_map (hwords (.inl rfl)) h
  | rsverify => exact rsverifyBody_map hres h
  | mnenc => exact mnencBody_map (hwords (.inr rfl)) h
  | mndec => exact mndecBody_map (hheader rfl) h

/-- A change of cells a command neither reads nor writes may as well be made after the command. -/
theorem exec_map {i : Instr} (hf : CommutesWithWrites f i) (h : SameOperands i (f s) s) :
    exec i (f s) = onNext f (exec i s) := by
  rw [exec_eq_completeCommand, exec_eq_completeCommand, commandBody_map hf h]
  cases commandBody i s with
  | ok u => exact congrArg Host.Outcome.next (hf.1.finish u).symm
  | error e => exact congrArg Host.Outcome.next (hf.1.report e s).symm

end Bodies

/-! ### The registers of `Obligations.HeaderRegistersNotRead` and `Obligations.LengthRegistersNotRead` -/

theorem commutesWithWrites_writeHeaderRegs (h : Header) {i : Instr} (hi : i ≠ .mndec) :
    CommutesWithWrites (writeHeaderRegs h) i :=
  ⟨⟨fun _ => rfl, fun _ _ => rfl, fun _ _ => rfl, fun _ _ => rfl, fun _ _ _ => rfl, fun _ _ _ _ => rfl⟩,
    fun _ _ _ _ => rfl, fun h => absurd h hi⟩

theorem commutesWithWrites_len (v : Half) (i : Instr) : CommutesWithWrites (fun s => { s with len := v }) i :=
  ⟨⟨fun _ => rfl, fun _ _ => rfl, fun _ _ => rfl, fun _ _ => rfl, fun _ _ _ => rfl, fun _ _ _ _ => rfl⟩,
    fun _ _ _ _ => rfl, fun _ _ _ _ => rfl⟩

theorem commutesWithWrites_plen (v : Half) (i : Instr) : CommutesWithWrites (fun s => { s with plen := v }) i :=
  ⟨⟨fun _ => rfl, fun _ _ => rfl, fun _ _ => rfl, fun _ _ => rfl, fun _ _ _ => rfl, fun _ _ _ _ => rfl⟩,
    fun _ _ _ _ => rfl, fun _ _ _ _ => rfl⟩

theorem commutesWithWrites_wlen (v : Half) {i : Instr} (hc : i ≠ .rscreate) (hm : i ≠ .mnenc) :
    CommutesWithWrites (fun s => { s with wlen := v }) i :=
  ⟨⟨fun _ => rfl, fun _ _ => rfl, fun _ _ => rfl, fun _ _ => rfl, fun _ _ _ => rfl, fun _ _ _ _ => rfl⟩,
    fun hi => (hi.elim hc hm).elim, fun _ _ _ _ => rfl⟩

/-- `MNDEC` reads no header register, and on success overwrites them all (45_mnemonic.md R158). -/
theorem mndecBody_writeHeaderRegs (h : Header) (s : State) : mndecBody (writeHeaderRegs h s) = mndecBody s := rfl

end Sys2Proof.Machine

namespace Sys2Proof.Proofs

open Sys2Proof Sys2Proof.Machine

/-- Settles O23: the header registers are no operands of the commands the statement lists, and `MNDEC`, whose body does not
read them, writes all of them or, with an error, none. -/
theorem headerRegistersNotRead : Obligations.HeaderRegistersNotRead := by
  refine ⟨fun i s h hi => ?_, fun s t h hs ht => ?_⟩
  · rcases hi with ⟨a, b, rfl⟩ | ⟨k, rfl⟩ | ⟨a, rfl⟩ | ⟨x, rfl⟩ | ⟨a, b, rfl⟩ | ⟨k, rfl⟩ | ⟨rfl | rfl, hext⟩ |
      ⟨rfl | rfl, hid, hext, hitexp⟩ <;> refine exec_map (commutesWithWrites_writeHeaderRegs h nofun) ?_
    · exact trivial
    · exact trivial
    · exact trivial
    · exact ⟨rfl, rfl, rfl, rfl, rfl⟩
    · exact ⟨rfl, rfl, rfl, rfl⟩
    · exact ⟨rfl, rfl, rfl, rfl, rfl⟩
    · exact ⟨rfl, rfl, rfl, hext⟩
    · exact ⟨rfl, rfl, rfl, hext⟩
    · exact ⟨rfl, rfl, rfl, rfl, rfl, hitexp, hid, hext⟩
    · exact ⟨rfl, rfl, rfl, rfl, rfl, hitexp, hid, hext⟩
  · have hbody : commandBody .mndec (writeHeaderRegs h s) = commandBody .mndec s := mndecBody_writeHeaderRegs h s
    rw [exec_eq_completeCommand, hbody]
    rcases exec_next ht with ⟨u, hu, rfl⟩ | ⟨e, he, rfl⟩
    · obtain ⟨-, -, hstatus, -⟩ := (commandBody_result hu).frame
      exact ⟨fun _ => by rw [hu, completeCommand_ok], fun herr => by simp [hstatus, hs] at herr⟩
    · exact ⟨fun hok => by simp at hok, fun _ => by rw [he, completeCommand_error]; rfl⟩

/-- Settles O24: a length register is an operand of, and is written by, the commands the statement excepts only. -/
theorem lengthRegistersNotRead : Obligations.LengthRegistersNotRead := by
  intro i s v
  refine ⟨fun hsplit henc hdec hmnenc => ?_, fun henc hdec => ?_, fun hcreate hverify hmndec hmnenc => ?_⟩
  · refine exec_map (f := fun s => { s with len := v }) (commutesWithWrites_len v i) ?_
    cases i with
    | split t n => exact absurd rfl (hsplit t n)
    | encrypt => exact absurd rfl henc
    | decrypt => exact absurd rfl hdec
    | mnenc => exact absurd rfl hmnenc
    | _ => simp [SameOperands]
  · refine exec_map (f := fun s => { s with plen := v }) (commutesWithWrites_plen v i) ?_
    cases i with
    | encrypt => exact absurd rfl henc
    | decrypt => exact absurd rfl hdec
    | _ => simp [SameOperands, headerRegs]
  · refine exec_map (f := fun s => { s with wlen := v }) (commutesWithWrites_wlen v hcreate hmnenc) ?_
    cases i with
    | rscreate => exact absurd rfl hcreate
    | rsverify => exact absurd rfl hverify
    | mndec => exact absurd rfl hmndec
    | mnenc => exact absurd rfl hmnenc
    | _ => simp [SameOperands]

end Sys2Proof.Proofs

end

/-! ## The host port: what an access comes to, and what a write leaves alone -/
section

set_option Elab.async false

namespace Sys2Proof.Machine

/-- A legal capacity keeps every mapped cell inside the window of 20_memory.md R40. -/
theorem PortCell.offset_lt_window {p : Params} {c : PortCell} (hp : Config.ParamsOk p) (hm : c.Mapped p) :
    c.offset < 0x8000 := by
  obtain ⟨-, -, hlen, hpass, -, hwords⟩ := hp
  cases c with
  | sx | slen | sec | pass | words | out | sdata =>
    dsimp only [PortCell.Mapped, PortCell.offset] at hm ⊢
    omega
  | _ => decide

/-! ### The outcome of an access, by its case in 20_memory.md R44 to R46 -/

section Access

variable {addr : Offset} {size : Nat} {v : Word} {c : PortCell} {s : State}

theorem hostRead_busy_status (hb : s.status.busy = true) (hc : reachedCell s.params addr size = some .status) :
    hostRead addr size s = answerRead s.status.word s := by
  rw [hostRead, if_pos hb, if_pos hc]

theorem hostRead_busy_other (hb : s.status.busy = true) (hc : reachedCell s.params addr size ≠ some .status) :
    hostRead addr size s = answerRead 0 (refuseBusy s) := by
  rw [hostRead, if_pos hb, if_neg hc]

theorem hostRead_idle_some (hb : s.status.busy = false) (hc : reachedCell s.params addr size = some c) :
    hostRead addr size s = answerRead (readCell c s) s := by
  simp [hostRead, hb, hc]

theorem hostRead_idle_none (hb : s.status.busy = false) (hc : reachedCell s.params addr size = none) :
    hostRead addr size s = answerRead 0 (refuseIdle s) := by
  simp [hostRead, hb, hc]

theorem hostWrite_busy (hb : s.status.busy = true) : hostWrite addr size v s = refuseBusy s := by
  rw [hostWrite, if_pos hb]

theorem hostWrite_idle_fits (hb : s.status.busy = false) (hc : reachedCell s.params addr size = some c)
    (hw : c.writable = true) (hv : v.toNat < 2 ^ c.width) : hostWrite addr size v s = writeCell c v s := by
  simp [hostWrite, hb, hc, hw, hv]

theorem hostWrite_idle_refused (hb : s.status.busy = false)
    (hbad : ∀ c, reachedCell s.params addr size = some c → c.writable = true → ¬ v.toNat < 2 ^ c.width) :
    hostWrite addr size v s = refuseIdle s := by
  cases hc : reachedCell s.params addr size with
  | none => simp [hostWrite, hb, hc]
  | some c =>
    have hno : ¬ (c.writable && decide (v.toNat < 2 ^ c.width)) = true := by simpa using hbad c hc
    simp only [hostWrite, hb, hc, hno, Bool.false_eq_true, if_false]

end Access

/-! ### Reading a cell after a write (20_memory.md R44) -/

/-- Data that fits a cell survives the narrowing to its width and the zero extension of the read (20_memory.md R43). -/
theorem setWidth_setWidth_of_fits {v : Word} {w : Nat} (hv : v.toNat < 2 ^ w) : (v.setWidth w).setWidth 32 = v :=
  BitVec.eq_of_toNat_eq <| by
    rw [BitVec.toNat_setWidth, BitVec.toNat_setWidth, Nat.mod_eq_of_lt hv, Nat.mod_eq_of_lt v.isLt]

theorem readCell_writeCell_same {c : PortCell} {v : Word} (s : State) (hw : c.writable = true)
    (hv : v.toNat < 2 ^ c.width) : readCell c (writeCell c v s) = v := by
  have hfits := setWidth_setWidth_of_fits hv
  cases c with
  | cmd => rfl
  | status | err | info | r0 | olen | out => cases hw
  | sx | slen | sec | pass | words | sdata =>
    simp only [readCell, writeCell, slotX, slotLen, Memory.read_write_same]
    exact hfits
  | _ => exact hfits

/-- Slots do not overlap in `SDATA`: an element number is below the 256 elements of a slot. -/
theorem slotKey_inj {i i' j j' : Nat} (hj : j < 256) (hj' : j' < 256) (h : slotKey i j = slotKey i' j') :
    i = i' ∧ j = j' := by
  simp only [slotKey] at h
  omega

/-- The word the port reads from an element of an array, after a write to another element. -/
theorem setWidth_read_write_other {w k j : Nat} (m : Memory w) (u : BitVec w) (h : j ≠ k) :
    (Memory.read (Memory.write m k u) j).setWidth 32 = (Memory.read m j).setWidth 32 := by
  rw [Memory.read_write_other m u h]

/-- A write to a cell other than `CMD` leaves the value of every other cell alone. -/
theorem readCell_writeCell_other {c d : PortCell} {s : State} (hp : Config.ParamsOk s.params) (hc : c.Mapped s.params)
    (hd : d.Mapped s.params) (hcmd : c ≠ .cmd) (hne : d ≠ c) (v : Word) :
    readCell d (writeCell c v s) = readCell d s := by
  cases c with
  | cmd => exact absurd rfl hcmd
  | status | err | info | r0 | olen | out => rfl
  | sdata i j =>
    cases d with
    | sdata i' j' =>
      obtain ⟨-, -, hmax, -⟩ := hp
      have hkey : slotKey i' j' ≠ slotKey i j := fun h => by
        obtain ⟨rfl, rfl⟩ := slotKey_inj (Nat.lt_of_lt_of_le hd.2 hmax) (Nat.lt_of_lt_of_le hc.2 hmax) h
        exact hne rfl
      exact setWidth_read_write_other _ _ hkey
    | _ => rfl
  | sx i =>
    cases d with
    | sx j => exact setWidth_read_write_other _ _ fun h => hne (congrArg _ h)
    | _ => rfl
  | slen i =>
    cases d with
    | slen j => exact setWidth_read_write_other _ _ fun h => hne (congrArg _ h)
    | _ => rfl
  | sec i =>
    cases d with
    | sec j => exact setWidth_read_write_other _ _ fun h => hne (congrArg _ h)
    | _ => rfl
  | pass i =>
    cases d with
    | pass j => exact setWidth_read_write_other _ _ fun h => hne (congrArg _ h)
    | _ => rfl
  | words i =>
    cases d with
    | words j => exact setWidth_read_write_other _ _ fun h => hne (congrArg _ h)
    | _ => rfl
  | _ =>
    -- A register: what any other cell reads is another field, and the register itself is excluded.
    cases d <;> try rfl
    exact absurd rfl hne

/-- A write touches none of the fields that are the model's own (log entries 1 to 4). -/
theorem writeCell_modelFields (c : PortCell) (v : Word) (s : State) :
    (writeCell c v s).turns = s.turns ∧ (writeCell c v s).rdata = s.rdata ∧ (writeCell c v s).params = s.params ∧
      (writeCell c v s).drawSerial = s.drawSerial := by
  cases c <;> exact ⟨rfl, rfl, rfl, rfl⟩

end Sys2Proof.Machine

namespace Sys2Proof.Proofs

open Sys2Proof Sys2Proof.Machine

/-- Settles O12: the decoder of offsets inverts `PortCell.offset`, whose values lie in the window. -/
theorem addressMapIsOneCellPerOffset : Obligations.AddressMapIsOneCellPerOffset := by
  refine fun p hp => ⟨fun c hm => ?_, fun addr c h => cellAt_sound h⟩
  have hlt := PortCell.offset_lt_window hp hm
  exact ⟨hlt, cellAt_complete hp hm (by rw [BitVec.toNat_ofNat, Nat.mod_eq_of_lt hlt])⟩

/-- Settles O9: while busy a read is answered exactly if it reaches `STATUS`, and a write never reaches a cell. -/
theorem busyAccessRefused : Obligations.BusyAccessRefused := by
  intro s a hb
  constructor
  · rintro rfl
    exact hostRead_busy_status hb (reachedCell_eq_status_iff.mpr ⟨rfl, rfl⟩)
  · intro ha
    cases a with
    | read addr size =>
      refine hostRead_busy_other hb fun hc => ha ?_
      obtain ⟨rfl, rfl⟩ := reachedCell_eq_status_iff.mp hc
      rfl
    | write addr size v => exact hostWrite_busy hb

/-- Settles O10: R46's causes are those for which a read reaches no cell, and a write no writable cell its data fits. -/
theorem idleAccessRefused : Obligations.IdleAccessRefused := by
  intro s a hp hb hr
  cases a with
  | read addr size => exact hostRead_idle_none hb ((refusedIdle_read_iff hp addr size).mp hr)
  | write addr size v => exact hostWrite_idle_refused hb ((refusedIdle_write_iff hp addr size v).mp hr)

/-- Settles O11: the access reaches the cell at its offset, so it is a read or a write of that cell. -/
theorem idleAccessReadsOrReplaces : Obligations.IdleAccessReadsOrReplaces := by
  intro s c addr hp hb hm ho
  have hc : reachedCell s.params addr 4 = some c := reachedCell_eq_some_iff.mpr ⟨rfl, cellAt_complete hp hm ho⟩
  refine ⟨hostRead_idle_some hb hc, fun v hw hv => ?_⟩
  have hwrite : hostAccess (.write addr 4 v) s = writeCell c v s := hostWrite_idle_fits hb hc hw hv
  obtain ⟨hturns, hrdata, hparams, hserial⟩ := writeCell_modelFields c v s
  rw [hwrite]
  refine ⟨readCell_writeCell_same s hw hv, hturns, hrdata, hparams, hserial, fun hcmd d hd hne => ?_, ?_⟩
  · exact readCell_writeCell_other hp hm hd hcmd hne v
  · rintro rfl
    rfl

end Sys2Proof.Proofs

end

/-!
## The command word

A word is its four fields (30_encoding.md R60), so each fact about `encode`, `decode` and the `mask` column of R62 is one
about the fields. `decode` is then said once in terms of the rows of the opcode map (`decode_of_opcode` and the two lemmas
before it), and the statements about the encoding follow from that.
-/
section

set_option Elab.async false

namespace Sys2Proof

/-! ### The four fields of a word -/

theorem word_eq_iff_fields {c d : Word} :
    c = d ↔ opcField c = opcField d ∧ aField c = aField d ∧ bField c = bField d ∧ zField c = zField d := by
  constructor
  · rintro rfl
    exact ⟨rfl, rfl, rfl, rfl⟩
  · rintro ⟨ho, ha, hb, hz⟩
    have hsplit (x : Word) : (zField x ++ bField x) ++ (aField x ++ opcField x) = x := by
      simp only [zField, bField, aField, opcField]
      iterate 3 rw [BitVec.extractLsb'_append_extractLsb'_eq_extractLsb' (by rfl)]
      exact BitVec.extractLsb'_eq_self
    rw [← hsplit c, ← hsplit d, ho, ha, hb, hz]

@[simp] theorem opcField_and (c d : Word) : opcField (c &&& d) = opcField c &&& opcField d := BitVec.extractLsb'_and

@[simp] theorem aField_and (c d : Word) : aField (c &&& d) = aField c &&& aField d := BitVec.extractLsb'_and

@[simp] theorem bField_and (c d : Word) : bField (c &&& d) = bField c &&& bField d := BitVec.extractLsb'_and

@[simp] theorem zField_and (c d : Word) : zField (c &&& d) = zField c &&& zField d := BitVec.extractLsb'_and

@[simp] theorem opcField_encode (i : Instr) : opcField (encode i) = i.opcode :=
  let ⟨h, _, _, _⟩ := Laws.packWord_fields i.opcode i.operandA i.operandB
  h

@[simp] theorem aField_encode (i : Instr) : aField (encode i) = i.operandA :=
  let ⟨_, h, _, _⟩ := Laws.packWord_fields i.opcode i.operandA i.operandB
  h

@[simp] theorem bField_encode (i : Instr) : bField (encode i) = i.operandB :=
  let ⟨_, _, h, _⟩ := Laws.packWord_fields i.opcode i.operandA i.operandB
  h

@[simp] theorem zField_encode (i : Instr) : zField (encode i) = 0 :=
  let ⟨_, _, _, h⟩ := Laws.packWord_fields i.opcode i.operandA i.operandB
  h

/-! ### The rows of the opcode map -/

/-- The command in the row of `row` whose operand fields hold `a` and `b`, as far as the row's format has them
(30_encoding.md R60, R63). -/
def Instr.withOperands (row : Instr) (a b : Byte) : Instr :=
  match row with
  | .gfmul _ _ => .gfmul a b
  | .gfexp _ => .gfexp a
  | .gflog _ => .gflog a
  | .interp _ => .interp a
  | .split _ _ => .split a.toNat b.toNat
  | .recover _ => .recover a.toNat
  | .encrypt => .encrypt
  | .decrypt => .decrypt
  | .rscreate => .rscreate
  | .rsverify => .rsverify
  | .mnenc => .mnenc
  | .mndec => .mndec

/-- The operand fields that the row's format does not use are 0. -/
abbrev Instr.UnusedZero (row : Instr) (a b : Byte) : Prop := a &&& aField row.mask = 0 ∧ b &&& bField row.mask = 0

@[simp] theorem opcode_withOperands (row : Instr) (a b : Byte) : (row.withOperands a b).opcode = row.opcode := by
  cases row <;> rfl

theorem wellFormed_withOperands (row : Instr) (a b : Byte) : (row.withOperands a b).wellFormed = true := by
  have ha := a.isLt
  have hb := b.isLt
  cases row with
  | split t n => simp only [Instr.withOperands, Instr.wellFormed, Bool.and_eq_true, decide_eq_true_eq]; omega
  | recover t => simpa only [Instr.withOperands, Instr.wellFormed, decide_eq_true_eq] using ha
  | _ => rfl

/-- A well-formed command is the one in its row with its own operands: no bit of them is dropped (30_encoding.md R63). -/
theorem withOperands_self {i : Instr} (h : i.wellFormed = true) : i.withOperands i.operandA i.operandB = i := by
  cases i with
  | split t n =>
    simp only [Instr.wellFormed, Bool.and_eq_true, decide_eq_true_eq] at h
    obtain ⟨ht, hn⟩ := h
    simp [Instr.withOperands, Instr.operandA, Instr.operandB, Nat.mod_eq_of_lt, ht, hn]
  | recover t =>
    simp only [Instr.wellFormed, decide_eq_true_eq] at h
    simp [Instr.withOperands, Instr.operandA, Nat.mod_eq_of_lt, h]
  | _ => rfl

/-- The twelve opcodes of 30_encoding.md R62. -/
abbrev assignedOpcodes : List Byte := [0x01, 0x02, 0x03, 0x10, 0x20, 0x21, 0x30, 0x31, 0x40, 0x41, 0x50, 0x51]

/-- The opcodes of format A, which has no `B` (30_encoding.md R62). -/
abbrev formatAOpcodes : List Byte := [0x02, 0x03, 0x10, 0x21]

/-- The opcodes of format N, which has neither `A` nor `B` (30_encoding.md R62). -/
abbrev formatNOpcodes : List Byte := [0x30, 0x31, 0x40, 0x41, 0x50, 0x51]

theorem aField_mask_cases (row : Instr) :
    (row.opcode ∈ formatNOpcodes ∧ aField row.mask = 255#8) ∨
      (row.opcode ∉ formatNOpcodes ∧ aField row.mask = 0#8) := by
  cases row <;> simp only [Instr.mask, Instr.opcode] <;> decide

theorem bField_mask_cases (row : Instr) :
    ((row.opcode ∈ formatAOpcodes ∨ row.opcode ∈ formatNOpcodes) ∧ bField row.mask = 255#8) ∨
      (row.opcode ∉ formatAOpcodes ∧ row.opcode ∉ formatNOpcodes ∧ bField row.mask = 0#8) := by
  cases row <;> simp only [Instr.mask, Instr.opcode] <;> decide

theorem opcField_mask (row : Instr) : opcField row.mask = 255#8 := by
  cases row <;> simp only [Instr.mask] <;> decide

theorem zField_mask (row : Instr) : zField row.mask = 255#8 := by
  cases row <;> simp only [Instr.mask] <;> decide

theorem and_onesByte (x : Byte) : x &&& 255#8 = x := BitVec.and_allOnes

theorem unusedZero_iff (row : Instr) (a b : Byte) :
    row.UnusedZero a b ↔
      (row.opcode ∈ formatAOpcodes → b = 0) ∧ (row.opcode ∈ formatNOpcodes → a = 0 ∧ b = 0) := by
  rw [Instr.UnusedZero]
  rcases aField_mask_cases row with ⟨hN, ha⟩ | ⟨hN, ha⟩ <;>
    rcases bField_mask_cases row with ⟨hAN, hb⟩ | ⟨hA, hN', hb⟩
  · rw [ha, hb, and_onesByte, and_onesByte]
    exact ⟨fun h => ⟨fun _ => h.2, fun _ => h⟩, fun h => h.2 hN⟩
  · exact absurd hN hN'
  · rw [ha, hb, and_onesByte, BitVec.and_zero]
    exact ⟨fun h => ⟨fun _ => h.2, fun h' => absurd h' hN⟩, fun h => ⟨rfl, h.1 (hAN.resolve_right hN)⟩⟩
  · rw [ha, hb, BitVec.and_zero, BitVec.and_zero]
    exact ⟨fun _ => ⟨fun h => absurd h hA, fun h => absurd h hN⟩, fun _ => ⟨rfl, rfl⟩⟩

theorem unusedZero_operands (i : Instr) : i.UnusedZero i.operandA i.operandB := by
  rw [unusedZero_iff]
  cases i <;> simp [Instr.operandA, Instr.operandB, Instr.opcode]

theorem operands_withOperands {row : Instr} {a b : Byte} (h : row.UnusedZero a b) :
    (row.withOperands a b).operandA = a ∧ (row.withOperands a b).operandB = b := by
  obtain ⟨hA, hN⟩ := (unusedZero_iff row a b).mp h
  cases row with
  | gfmul => exact ⟨rfl, rfl⟩
  | split => simp [Instr.withOperands, Instr.operandA, Instr.operandB]
  | recover => simp [Instr.withOperands, Instr.operandA, Instr.operandB, hA (by simp [Instr.opcode])]
  | gfexp | gflog | interp => exact ⟨rfl, (hA (by simp [Instr.opcode])).symm⟩
  | encrypt | decrypt | rscreate | rsverify | mnenc | mndec =>
    obtain ⟨rfl, rfl⟩ := hN (by decide)
    exact ⟨rfl, rfl⟩

/-- The `mask` and `match` columns of 30_encoding.md R62, field by field. -/
theorem and_mask_eq_iff (c : Word) (row : Instr) :
    c &&& row.mask = row.opcode.setWidth 32 ↔
      zField c = 0 ∧ opcField c = row.opcode ∧ row.UnusedZero (aField c) (bField c) := by
  have hmatch : opcField (row.opcode.setWidth 32) = row.opcode ∧ aField (row.opcode.setWidth 32) = 0 ∧
      bField (row.opcode.setWidth 32) = 0 ∧ zField (row.opcode.setWidth 32) = 0 := by
    cases row <;> simp only [Instr.opcode] <;> decide
  obtain ⟨ho, ha, hb, hz⟩ := hmatch
  rw [word_eq_iff_fields, opcField_and, aField_and, bField_and, zField_and, opcField_mask, zField_mask, ho, ha, hb, hz,
    and_onesByte, and_onesByte, Instr.UnusedZero]
  exact ⟨fun ⟨ho, ha, hb, hz⟩ => ⟨hz, ho, ha, hb⟩, fun ⟨hz, ho, ha, hb⟩ => ⟨ho, ha, hb, hz⟩⟩

theorem exists_opcode_eq_iff (b : Byte) : (∃ row : Instr, b = row.opcode) ↔ b ∈ assignedOpcodes := by
  constructor
  · rintro ⟨row, rfl⟩
    cases row <;> simp only [Instr.opcode] <;> decide
  · simp only [List.mem_cons, List.not_mem_nil, or_false]
    rintro (h | h | h | h | h | h | h | h | h | h | h | h)
    · exact ⟨.gfmul 0 0, h⟩
    · exact ⟨.gfexp 0, h⟩
    · exact ⟨.gflog 0, h⟩
    · exact ⟨.interp 0, h⟩
    · exact ⟨.split 0 0, h⟩
    · exact ⟨.recover 0, h⟩
    · exact ⟨.encrypt, h⟩
    · exact ⟨.decrypt, h⟩
    · exact ⟨.rscreate, h⟩
    · exact ⟨.rsverify, h⟩
    · exact ⟨.mnenc, h⟩
    · exact ⟨.mndec, h⟩

/-- Which words match a row (30_encoding.md R62, R64). -/
theorem exists_match_iff (c : Word) :
    (∃ row : Instr, c &&& row.mask = row.opcode.setWidth 32) ↔
      zField c = 0 ∧ opcField c ∈ assignedOpcodes ∧ (opcField c ∈ formatAOpcodes → bField c = 0) ∧
        (opcField c ∈ formatNOpcodes → aField c = 0 ∧ bField c = 0) := by
  simp only [and_mask_eq_iff, unusedZero_iff, ← exists_opcode_eq_iff]
  constructor
  · rintro ⟨row, hz, ho, hu⟩
    rw [← ho] at hu
    exact ⟨hz, ⟨row, ho⟩, hu⟩
  · rintro ⟨hz, ⟨row, ho⟩, hu⟩
    rw [ho] at hu
    exact ⟨row, hz, ho, hu⟩

/-! ### What `decode` answers -/

theorem decode_of_zField_ne_zero {c : Word} (hz : zField c ≠ 0) : decode c = .error .zNotZero := if_pos hz

theorem decode_of_unassigned {c : Word} (hz : zField c = 0) (ho : ∀ row : Instr, opcField c ≠ row.opcode) :
    decode c = .error .unassignedOpcode := by
  have hmem := mt (exists_opcode_eq_iff (opcField c)).mpr (by rintro ⟨row, h⟩; exact ho row h)
  simp only [List.mem_cons, List.not_mem_nil, or_false, not_or] at hmem
  simp only [decode, hz, hmem, ne_eq, not_true_eq_false, if_false]

/-- With `Z = 0` and the opcode of a row, the word is the row's command exactly if it leaves no unused field set. -/
theorem decode_of_opcode {c : Word} {row : Instr} (hz : zField c = 0) (ho : opcField c = row.opcode) :
    decode c =
      if row.UnusedZero (aField c) (bField c) then .ok (row.withOperands (aField c) (bField c))
      else .error .unusedOperandNotZero := by
  cases row <;> simp [decode, hz, ho, unusedZero_iff, formatA, formatN, Instr.withOperands, Instr.opcode]

theorem decode_of_match {c : Word} {row : Instr} (h : c &&& row.mask = row.opcode.setWidth 32) :
    decode c = .ok (row.withOperands (aField c) (bField c)) := by
  obtain ⟨hz, ho, hu⟩ := (and_mask_eq_iff c row).mp h
  rw [decode_of_opcode hz ho, if_pos hu]

/-- A word that decodes is selected by a row, and its operands are its fields. -/
theorem match_of_decode {c : Word} {i : Instr} (h : decode c = .ok i) :
    ∃ row : Instr, c &&& row.mask = row.opcode.setWidth 32 ∧ i = row.withOperands (aField c) (bField c) := by
  by_cases hz : zField c = 0
  · by_cases ho : ∃ row : Instr, opcField c = row.opcode
    · obtain ⟨row, ho⟩ := ho
      rw [decode_of_opcode hz ho] at h
      split at h
      · next hu =>
        cases h
        exact ⟨row, (and_mask_eq_iff c row).mpr ⟨hz, ho, hu⟩, rfl⟩
      · cases h
    · rw [decode_of_unassigned hz (not_exists.mp ho)] at h
      cases h
  · rw [decode_of_zField_ne_zero hz] at h
    cases h

/-- The word of a command carries the command's row and leaves the unused fields 0. -/
theorem encode_and_mask (i : Instr) : encode i &&& i.mask = i.opcode.setWidth 32 := by
  rw [and_mask_eq_iff, zField_encode, opcField_encode, aField_encode, bField_encode]
  exact ⟨rfl, rfl, unusedZero_operands i⟩

theorem encode_withOperands {c : Word} {row : Instr} (h : c &&& row.mask = row.opcode.setWidth 32) :
    encode (row.withOperands (aField c) (bField c)) = c := by
  obtain ⟨hz, ho, hu⟩ := (and_mask_eq_iff c row).mp h
  obtain ⟨ha, hb⟩ := operands_withOperands hu
  rw [word_eq_iff_fields, opcField_encode, aField_encode, bField_encode, zField_encode, opcode_withOperands]
  exact ⟨ho.symm, ha, hb, hz.symm⟩

theorem decode_encode {i : Instr} (h : i.wellFormed = true) : decode (encode i) = .ok i := by
  rw [decode_of_match (encode_and_mask i), aField_encode, bField_encode, withOperands_self h]

end Sys2Proof

namespace Sys2Proof.Machine

/-! ### A register at the port while the block is idle -/

theorem cellAt_register {c : PortCell} (h : c ∈ registerCells) (p : Params) :
    cellAt p (BitVec.ofNat 15 c.offset) = some c := by
  cases c with
  | sx | slen | sec | pass | words | out | sdata => simp [registerCells] at h
  | _ => rfl

theorem reachedCell_cellOffset_register {c : PortCell} (h : c ∈ registerCells) (p : Params) :
    reachedCell p (cellOffset p c) accessSize = some c := by
  rw [reachedCell_eq_some_iff, cellOffset_of_mapped (cellAt_register h p)]
  exact ⟨rfl, cellAt_register h p⟩

theorem getCell_register {c : PortCell} {s : State} (h : c ∈ registerCells) (hb : s.status.busy = false) :
    getCell c s = answerRead (readCell c s) s :=
  hostRead_idle_some hb (reachedCell_cellOffset_register h s.params)

theorem getCell_status {s : State} (hb : s.status.busy = false) : getCell .status s = answerRead s.status.word s :=
  getCell_register (by decide) hb

theorem getCell_err {s : State} (hb : s.status.busy = false) : getCell .err s = answerRead (s.err.setWidth 32) s :=
  getCell_register (by decide) hb

theorem getCell_info {s : State} (hb : s.status.busy = false) : getCell .info s = answerRead s.info s :=
  getCell_register (by decide) hb

/-- A write to `CMD` while idle is command issue: any word fits, and `CMD` is writable (30_encoding.md R61). -/
theorem setCell_cmd {s : State} (hb : s.status.busy = false) (v : Word) : setCell .cmd v s = issueCommand v s :=
  hostWrite_idle_fits hb (reachedCell_cellOffset_register (by decide) s.params) rfl v.isLt

/-- Bit 2 of `STATUS` is `ERROR` (10_state.md R17). -/
theorem Status.getLsbD_word_two (t : Status) : t.word.getLsbD 2 = t.error := by
  obtain ⟨busy, done, error, haz, badacc⟩ := t
  revert busy done error haz badacc
  decide

/-! ### The block's step of a pending word -/

theorem blockStep_of_decode {s : State} {i : Instr} (hb : s.status.busy = true) (hd : decode s.cmd = .ok i) :
    blockStep s = exec i s := by
  rw [blockStep, if_pos hb, fetchCommand, hd]

theorem blockStep_of_illegal {s : State} (hb : s.status.busy = true) (hd : ∀ i, decode s.cmd ≠ .ok i) :
    blockStep s = .next (completeIllegal s) := by
  rw [blockStep, if_pos hb, fetchCommand]
  cases hc : decode s.cmd with
  | ok i => exact absurd hc (hd i)
  | error e => rfl

/-- Every command completes (60_exceptions.md R213). -/
theorem exists_exec_next (i : Instr) (s : State) : ∃ t, exec i s = .next t := by
  rw [exec_eq_completeCommand]
  rcases completeCommand_cases s (commandBody i s) with ⟨u, -, h⟩ | ⟨e, -, h⟩
  · exact ⟨_, h⟩
  · exact ⟨_, h⟩

/-- A completed command leaves the block idle (60_exceptions.md R212, R214). -/
theorem busy_of_exec {i : Instr} {s t : State} (h : exec i s = .next t) : t.status.busy = false := by
  rcases exec_next h with ⟨u, -, rfl⟩ | ⟨e, -, rfl⟩ <;> rfl

/-- `RUN` on an idle block (30_encoding.md R66): `ERROR` of the completed command decides how the script goes on. -/
theorem runCommand_of_exec {i : Instr} {s t : State} (hi : i.wellFormed = true) (hb : s.status.busy = false)
    (ht : exec i (issueCommand (encode i) s) = .next t) :
    runCommand i s =
      if t.status.error then .error (.command t.err t.info) else .ok (answerRead t.status.word t) := by
  have hissued : decode (issueCommand (encode i) s).cmd = .ok i := by rw [issueCommand_cmd, decode_encode hi]
  have hstep : blockStep (setCell .cmd (encode i) s) = .next t := by
    rw [setCell_cmd hb, blockStep_of_decode rfl hissued, ht]
  have hidle := busy_of_exec ht
  have herr := getCell_err (s := answerRead t.status.word t) hidle
  have hinfo := getCell_info (s := answerRead (t.err.setWidth 32) (answerRead t.status.word t)) hidle
  have hcode : (t.err.setWidth 32).setWidth 8 = t.err := by
    rw [BitVec.setWidth_setWidth_of_le _ (by decide), BitVec.setWidth_eq]
  simp only [runCommand, hstep, getCell_status hidle, answerRead_rdata, Status.getLsbD_word_two, herr, hinfo,
    answerRead_err, answerRead_info, hcode]

end Sys2Proof.Machine

namespace Sys2Proof.Proofs

open Sys2Proof Sys2Proof.Machine

/-- Settles O2: the word of a command lies in the command's row and its fields are the operands. -/
theorem decodeOfEncode : Obligations.DecodeOfEncode := fun _ h => decode_encode h

/-- Settles O3: the word lies in the row of the decoded command, so each of its four fields is fixed by the command. -/
theorem encodeOfDecode : Obligations.EncodeOfDecode := by
  intro c i h
  obtain ⟨row, hrow, rfl⟩ := match_of_decode h
  exact ⟨wellFormed_withOperands row _ _, encode_withOperands hrow⟩

/-- Settles O4: the opcode names the row, and within a row `decode` and the mask ask for the same fields to be 0. -/
theorem wordSelectsCommandByMask : Obligations.WordSelectsCommandByMask := by
  intro c row
  constructor
  · rintro ⟨i, hd, hi⟩
    obtain ⟨row', hrow', rfl⟩ := match_of_decode hd
    rw [opcode_withOperands] at hi
    rw [and_mask_eq_iff] at hrow' ⊢
    rwa [unusedZero_iff, hi, ← unusedZero_iff] at hrow'
  · intro h
    exact ⟨_, decode_of_match h, opcode_withOperands row _ _⟩

/-- Settles O7: given `Z = 0` and a row's opcode, only the row's unused fields can make the word illegal. -/
theorem illegalWordReportsItself : Obligations.IllegalWordReportsItself := by
  refine ⟨fun c => ?_, fun s hb hrow => ?_⟩
  · rw [← not_exists, exists_match_iff]
    simp only [Classical.not_and_iff_not_or_not, Classical.not_imp, ne_eq]
  · have hd (i : Instr) : decode s.cmd ≠ .ok i := fun h => by
      obtain ⟨row, h, -⟩ := match_of_decode h
      exact hrow row h
    rw [blockStep_of_illegal hb hd, errorReport, BitVec.ofNat_toNat, BitVec.setWidth_eq]
    rfl

/-- Settles O60: the issued word decodes to the command, and the reads after it find the block idle. -/
theorem runReportsTheCommand : Obligations.RunReportsTheCommand := by
  intro i s hi hb
  obtain ⟨t, ht⟩ := exists_exec_next i (issueCommand (encode i) s)
  obtain ⟨-, -, hhaz, hbadacc, -⟩ := exec_frame ht
  have hrun := runCommand_of_exec hi hb ht
  exact ⟨t, ht, hhaz, hbadacc, fun he => by rw [hrun, if_pos he], fun he => by rw [hrun, he]; rfl⟩

/-- Settles O1: each word evaluates. -/
theorem decodeReadsSampleWords : Obligations.DecodeReadsSampleWords :=
  ⟨rfl, rfl, rfl, rfl, rfl, rfl, rfl, rfl, rfl, rfl, rfl, rfl, rfl, rfl, rfl, rfl, rfl, rfl⟩

/-- Settles O8: offset 0 is `CMD`, whose write is command issue. -/
theorem cmdWriteIssues : Obligations.CmdWriteIssues := by
  intro s c hb
  have hreach : reachedCell s.params 0 4 = some .cmd := reachedCell_eq_some_iff.mpr ⟨rfl, rfl⟩
  exact hostWrite_idle_fits hb hreach rfl c.isLt

end Sys2Proof.Proofs

end

/-!
## GF(256)

What is evaluated is the tables, entry by entry (40_gf256.md R82): each entry of `EXP` is `g = x + 1` times the one before,
cyclically mod 255, and `LOG` is the inverse. The table product is then the bitwise product by induction on the exponent of
one factor, since multiplication by `g` can be taken out of the bitwise product: that product is linear over exclusive or,
and linear maps are compared on the eight powers of `x`.
-/
section

set_option Elab.async false

namespace Sys2Proof.Machine

/-! ### Linear maps of bytes -/

/-- A map of bytes that is linear over exclusive or, the addition of GF(256) (40_gf256.md R83). -/
def XorLinear (f : Byte → Byte) : Prop := ∀ a b, f (a ^^^ b) = f a ^^^ f b

theorem xorLinear_zero : XorLinear fun _ => 0 := fun _ _ => (BitVec.xor_zero (x := 0)).symm

theorem xorLinear_id : XorLinear fun a => a := fun _ _ => rfl

theorem XorLinear.map_zero {f : Byte → Byte} (hf : XorLinear f) : f 0 = 0 := by
  have h := hf 0 0
  rwa [BitVec.xor_self, BitVec.xor_self] at h

theorem XorLinear.comp {f g : Byte → Byte} (hf : XorLinear f) (hg : XorLinear g) : XorLinear fun a => f (g a) :=
  fun a b => (congrArg f (hg a b)).trans (hf _ _)

theorem XorLinear.xor {f g : Byte → Byte} (hf : XorLinear f) (hg : XorLinear g) : XorLinear fun a => f a ^^^ g a :=
  fun a b => by
    dsimp only
    rw [hf, hg]
    ac_rfl

/-- Adding `k` for each of two bits that is set: twice is not at all. -/
theorem ite_bne_xor (p q : Bool) (u v k : Byte) :
    (if p ^^ q then (u ^^^ v) ^^^ k else u ^^^ v) = (if p then u ^^^ k else u) ^^^ (if q then v ^^^ k else v) := by
  cases p <;> cases q
  case true.true =>
    calc
      u ^^^ v = (u ^^^ v) ^^^ (k ^^^ k) := by rw [BitVec.xor_self, BitVec.xor_zero]
      _ = (u ^^^ k) ^^^ (v ^^^ k) := by ac_rfl
  case false.false => rfl
  all_goals
    simp only [Bool.xor_false, Bool.xor_true, Bool.not_false, if_true, if_false, Bool.false_eq_true]
    ac_rfl

/-- The bits of a byte, added up one at a time, give the byte. -/
theorem foldl_twoPow_bits (a : Byte) :
    (List.range 8).foldl (fun acc k => if a.getLsbD k then acc ^^^ BitVec.twoPow 8 k else acc) 0 = a := by
  decide +revert

/-- Two linear maps are equal when they agree on the powers of `x`. -/
theorem XorLinear.ext {f g : Byte → Byte} (hf : XorLinear f) (hg : XorLinear g)
    (h : ∀ k, k < 8 → f (BitVec.twoPow 8 k) = g (BitVec.twoPow 8 k)) (a : Byte) : f a = g a := by
  rw [← foldl_twoPow_bits a]
  refine List.foldlRecOn (motive := fun b => f b = g b) _ _ (hf.map_zero.trans hg.map_zero.symm) fun b hb k hk => ?_
  split
  · rw [hf, hg, hb, h k (List.mem_range.mp hk)]
  · exact hb

/-! ### Multiplication by `x` -/

theorem xorLinear_timesX : XorLinear timesX := by
  intro a b
  rw [timesX, BitVec.msb_xor, BitVec.shiftLeft_xor_distrib]
  exact ite_bne_xor a.msb b.msb (a <<< 1) (b <<< 1) 0x1B

theorem xorLinear_timesXPow (k : Nat) : XorLinear fun a => timesXPow a k := by
  induction k with
  | zero => exact xorLinear_id
  | succ k ih => exact xorLinear_timesX.comp ih

/-- The reduction by 0x11B: `x ^ 8 = x ^ 4 + x ^ 3 + x + 1`. -/
theorem timesXPow_eight (a : Byte) :
    timesXPow a 8 = timesXPow a 0 ^^^ timesXPow a 1 ^^^ timesXPow a 3 ^^^ timesXPow a 4 :=
  (xorLinear_timesXPow 8).ext
    ((((xorLinear_timesXPow 0).xor (xorLinear_timesXPow 1)).xor (xorLinear_timesXPow 3)).xor (xorLinear_timesXPow 4))
    (by decide) a

/-! ### The bitwise product -/

/-- The sum over the bits of a second factor is linear in it. -/
theorem foldl_bits_xor (f : Nat → Byte) (l : List Nat) (b c u v : Byte) :
    l.foldl (fun acc i => if (b ^^^ c).getLsbD i then acc ^^^ f i else acc) (u ^^^ v) =
      l.foldl (fun acc i => if b.getLsbD i then acc ^^^ f i else acc) u ^^^
        l.foldl (fun acc i => if c.getLsbD i then acc ^^^ f i else acc) v := by
  induction l generalizing u v with
  | nil => rfl
  | cons i l ih =>
    simp only [List.foldl_cons, ← ih, BitVec.getLsbD_xor, ite_bne_xor]

theorem xorLinear_bitwiseProduct (a : Byte) : XorLinear (bitwiseProduct a) :=
  fun b c => foldl_bits_xor (timesXPow a) (List.range 8) b c 0 0

/-- The one bit that is set adds the one multiple of `a`. -/
theorem bitwiseProduct_twoPow (a : Byte) {k : Nat} (hk : k < 8) :
    bitwiseProduct a (BitVec.twoPow 8 k) = timesXPow a k := by
  have hone : bitwiseProduct a (BitVec.twoPow 8 k) = 0 ^^^ timesXPow a k := by
    match k, hk with
    | 0, _ | 1, _ | 2, _ | 3, _ | 4, _ | 5, _ | 6, _ | 7, _ => rfl
  exact hone.trans BitVec.zero_xor

/-- `x` times a power of `x`, below the reduction. -/
theorem timesX_twoPow {k : Nat} (hk : k < 7) : timesX (BitVec.twoPow 8 k) = BitVec.twoPow 8 (k + 1) := by
  decide +revert

theorem timesX_twoPow_seven :
    timesX (BitVec.twoPow 8 7) =
      BitVec.twoPow 8 0 ^^^ BitVec.twoPow 8 1 ^^^ BitVec.twoPow 8 3 ^^^ BitVec.twoPow 8 4 := by decide

theorem bitwiseProduct_timesX (a b : Byte) : bitwiseProduct a (timesX b) = timesX (bitwiseProduct a b) := by
  have hright := xorLinear_bitwiseProduct a
  refine (hright.comp xorLinear_timesX).ext (xorLinear_timesX.comp hright) (fun k hk => ?_) b
  rw [bitwiseProduct_twoPow a hk, ← timesXPow]
  obtain hk | rfl : k < 7 ∨ k = 7 := by omega
  · rw [timesX_twoPow hk, bitwiseProduct_twoPow a (by omega)]
  · rw [timesX_twoPow_seven, hright, hright, hright, timesXPow_eight]
    simp only [bitwiseProduct_twoPow a, Nat.reduceLT]

/-- Multiplication by the generator `g = x + 1` (40_gf256.md R80). -/
def timesG (a : Byte) : Byte := timesX a ^^^ a

/-- One turn of the loop of R80 is multiplication by `g`. -/
theorem timesG_toNat (a : Byte) : (timesG a).toNat = expLoop a.toNat := by
  decide +revert

theorem bitwiseProduct_timesG (a b : Byte) : bitwiseProduct a (timesG b) = timesG (bitwiseProduct a b) := by
  rw [timesG, xorLinear_bitwiseProduct a, bitwiseProduct_timesX, timesG]

theorem bitwiseProduct_zero_right (a : Byte) : bitwiseProduct a 0 = 0 := (xorLinear_bitwiseProduct a).map_zero

theorem bitwiseProduct_one_right (a : Byte) : bitwiseProduct a 1 = a := bitwiseProduct_twoPow a (k := 0) (by decide)

theorem bitwiseProduct_zero_left (b : Byte) : bitwiseProduct 0 b = 0 :=
  (xorLinear_bitwiseProduct 0).ext xorLinear_zero
    (fun k hk => (bitwiseProduct_twoPow 0 hk).trans (xorLinear_timesXPow k).map_zero) b

/-! ### The tables -/

theorem gfExp_zero : gfExp 0 = 1 := by decide

theorem gfLog_zero : gfLog 0 = 0 := by decide

/-- The entry after entry `i` is `g` times it, and entry 0 comes after entry 254. -/
theorem gfExp_succ {i : Nat} (hi : i < 255) : gfExp ((i + 1) % 255) = timesG (gfExp i) := by
  decide +revert +kernel

theorem gfLog_gfExp {i : Nat} (hi : i < 255) : gfLog (gfExp i) = i := by
  decide +revert +kernel

theorem gfLog_lt (a : Byte) : gfLog a < 255 := by
  decide +revert

theorem gfExp_gfLog {a : Byte} (ha : a ≠ 0) : gfExp (gfLog a) = a := by
  decide +revert

theorem gfExp_ne_zero {i : Nat} (hi : i < 255) : gfExp i ≠ 0 := by
  intro h
  obtain rfl : 0 = i := by rw [← gfLog_gfExp hi, h, gfLog_zero]
  rw [gfExp_zero] at h
  exact absurd h (by decide)

theorem gfExp_mod_succ (n : Nat) : gfExp ((n + 1) % 255) = timesG (gfExp (n % 255)) := by
  rw [← gfExp_succ (Nat.mod_lt n (by decide)), Nat.mod_add_mod]

theorem exists_gfExp {a : Byte} (ha : a ≠ 0) : ∃ i, i < 255 ∧ gfExp i = a := ⟨gfLog a, gfLog_lt a, gfExp_gfLog ha⟩

theorem gfExp_toNat {i : Nat} (hi : i < 255) : (gfExp i).toNat = expPower i := by
  induction i with
  | zero => rw [gfExp_zero]; rfl
  | succ i ih =>
    have hstep := gfExp_succ (i := i) (by omega)
    rw [Nat.mod_eq_of_lt hi] at hstep
    rw [hstep, timesG_toNat, ih (by omega), expPower]

/-! ### The table product -/

theorem gfMul_zero_left (b : Byte) : gfMul 0 b = 0 := if_pos (.inl rfl)

theorem gfMul_zero_right (a : Byte) : gfMul a 0 = 0 := if_pos (.inr rfl)

theorem gfMul_gfExp {i j : Nat} (hi : i < 255) (hj : j < 255) :
    gfMul (gfExp i) (gfExp j) = gfExp ((i + j) % 255) := by
  rw [gfMul, if_neg (not_or.mpr ⟨gfExp_ne_zero hi, gfExp_ne_zero hj⟩), gfLog_gfExp hi, gfLog_gfExp hj]

theorem bitwiseProduct_gfExp {i : Nat} (hi : i < 255) (n : Nat) :
    bitwiseProduct (gfExp i) (gfExp (n % 255)) = gfExp ((i + n) % 255) := by
  induction n with
  | zero => rw [Nat.zero_mod, gfExp_zero, bitwiseProduct_one_right, Nat.add_zero, Nat.mod_eq_of_lt hi]
  | succ n ih => rw [gfExp_mod_succ, bitwiseProduct_timesG, ih, ← gfExp_mod_succ, Nat.add_assoc]

theorem gfMul_eq_bitwiseProduct (a b : Byte) : gfMul a b = bitwiseProduct a b := by
  by_cases ha : a = 0
  · rw [ha, gfMul_zero_left, bitwiseProduct_zero_left]
  by_cases hb : b = 0
  · rw [hb, gfMul_zero_right, bitwiseProduct_zero_right]
  obtain ⟨i, hi, rfl⟩ := exists_gfExp ha
  obtain ⟨j, hj, rfl⟩ := exists_gfExp hb
  have hprod := bitwiseProduct_gfExp hi j
  rw [Nat.mod_eq_of_lt hj] at hprod
  rw [gfMul_gfExp hi hj, hprod]

/-! ### The field laws (40_gf256.md R87) -/

theorem gfMul_comm (a b : Byte) : gfMul a b = gfMul b a := by
  simp only [gfMul, or_comm, Nat.add_comm]

theorem gfMul_assoc (a b c : Byte) : gfMul a (gfMul b c) = gfMul (gfMul a b) c := by
  by_cases ha : a = 0
  · simp only [ha, gfMul_zero_left]
  by_cases hb : b = 0
  · simp only [hb, gfMul_zero_left, gfMul_zero_right]
  by_cases hc : c = 0
  · simp only [hc, gfMul_zero_right]
  obtain ⟨i, hi, rfl⟩ := exists_gfExp ha
  obtain ⟨j, hj, rfl⟩ := exists_gfExp hb
  obtain ⟨k, hk, rfl⟩ := exists_gfExp hc
  have hlt (n : Nat) : n % 255 < 255 := Nat.mod_lt n (by decide)
  rw [gfMul_gfExp hj hk, gfMul_gfExp hi (hlt _), gfMul_gfExp hi hj, gfMul_gfExp (hlt _) hk, Nat.add_mod_mod,
    Nat.mod_add_mod, Nat.add_assoc]

theorem gfMul_one_right (a : Byte) : gfMul a 1 = a :=
  (gfMul_eq_bitwiseProduct a 1).trans (bitwiseProduct_one_right a)

theorem gfMul_xor_right (a b c : Byte) : gfMul a (b ^^^ c) = gfMul a b ^^^ gfMul a c := by
  simp only [gfMul_eq_bitwiseProduct]
  exact xorLinear_bitwiseProduct a b c

theorem gfMul_gfInv {a : Byte} (ha : a ≠ 0) : gfMul a (gfInv a) = 1 := by
  obtain ⟨i, hi, rfl⟩ := exists_gfExp ha
  have hsum : (i + (255 - i) % 255) % 255 = 0 := by omega
  rw [gfInv, gfLog_gfExp hi, gfMul_gfExp hi (Nat.mod_lt _ (by decide)), hsum, gfExp_zero]

theorem gfMul_gfQuot {a b : Byte} (ha : a ≠ 0) (hb : b ≠ 0) : gfMul (gfQuot a b) b = a := by
  obtain ⟨i, hi, rfl⟩ := exists_gfExp ha
  obtain ⟨j, hj, rfl⟩ := exists_gfExp hb
  have hlt : (((i : Int) - j) % 255).toNat < 255 := by omega
  have hsum : ((((i : Int) - j) % 255).toNat + j) % 255 = i := by omega
  rw [gfQuot, gfLog_gfExp hi, gfLog_gfExp hj, gfMul_gfExp hlt hj, hsum]

/-! ### The commands -/

/-- A command whose one write is a value in `R0` completes on every state (60_exceptions.md R212). -/
theorem exec_of_scalarBody {i : Instr} {s : State} {v : Word} (h : commandBody i s = .ok (writeR0 v (clearResults s))) :
    exec i s = .next (scalarResult v s) := by
  rw [exec_eq_completeCommand, h, completeCommand_ok]
  rfl

end Sys2Proof.Machine

namespace Sys2Proof

theorem toNat_append_eq_add {v w : Nat} (x : BitVec v) (y : BitVec w) : (x ++ y).toNat = x.toNat * 2 ^ w + y.toNat := by
  rw [BitVec.toNat_append, ← Nat.shiftLeft_add_eq_or_of_lt y.isLt, Nat.shiftLeft_eq]

/-- The number a command word is (30_encoding.md R60). -/
theorem toNat_encode (i : Instr) :
    (encode i).toNat = i.opcode.toNat + i.operandA.toNat * 2 ^ 8 + i.operandB.toNat * 2 ^ 16 := by
  have hz : (0 : Byte).toNat = 0 := rfl
  rw [encode, packWord, toNat_append_eq_add, toNat_append_eq_add 0, toNat_append_eq_add i.operandA, hz]
  omega

end Sys2Proof

namespace Sys2Proof.Proofs

open Sys2Proof Sys2Proof.Machine

/-- Settles O27: by induction on the exponent of one factor, since both products take `g` out of it. -/
theorem gfMulIsPolynomialProduct : Obligations.GfMulIsPolynomialProduct := gfMul_eq_bitwiseProduct

/-- Settles O28: the exponents of the factors add up mod 255; the unit and distributivity come from the bitwise product. -/
theorem gfMulFieldLaws : Obligations.GfMulFieldLaws := fun a b c =>
  ⟨gfMul_comm a b, gfMul_assoc a b c, gfMul_one_right a, gfMul_zero_right a, gfMul_xor_right a b c, gfMul_gfInv,
    gfMul_gfQuot⟩

/-- Settles O25: by induction on the turns of the loop. -/
theorem expTableIsGeneratorPowers : Obligations.ExpTableIsGeneratorPowers := ⟨fun _ => gfExp_toNat, by decide⟩

/-- Settles O26: each table undoes the other. -/
theorem logTableInvertsExp : Obligations.LogTableInvertsExp := by
  refine ⟨fun a ha => ⟨gfLog_lt a, gfExp_gfLog ha, fun i hi hia => ?_⟩, gfLog_zero⟩
  rw [← hia, gfLog_gfExp hi]

/-- Settles O29: the body's one write is the product in `R0`. -/
theorem gfmulWritesProduct : Obligations.GfmulWritesProduct := fun _ _ _ =>
  ⟨exec_of_scalarBody rfl, toNat_encode _⟩

/-- Settles O30: the body's one write is the entry of `EXP` in `R0`. -/
theorem gfexpReadsTable : Obligations.GfexpReadsTable := fun _ _ =>
  ⟨exec_of_scalarBody rfl, by simp [toNat_encode, Instr.opcode, Instr.operandA, Instr.operandB]⟩

/-- Settles O31: the body's one write is the entry of `LOG` in `R0`, and `LOG[0]` is 0. -/
theorem gflogReadsTable : Obligations.GflogReadsTable := by
  intro a s
  have hexec (b : Byte) : exec (.gflog b) s = .next (scalarResult (BitVec.ofNat 32 (gfLog b)) s) :=
    exec_of_scalarBody rfl
  refine ⟨hexec a, ?_, by simp [toNat_encode, Instr.opcode, Instr.operandA, Instr.operandB]⟩
  rw [hexec, gfLog_zero]
  rfl

end Sys2Proof.Proofs

end

/-!
## Interpolation

The block's basis values, from logarithms, are the products of quotients of 41_interp.md R100, since a sum of logarithms
is the logarithm of the product. As functions of the evaluation point these are polynomials of degree below `k`, and such
a polynomial is determined by `k` points, since one with `k` roots is 0. The properties of R103 follow.
-/
section

set_option Elab.async false

namespace Sys2Proof.Machine

/-! ### More laws of the field (40_gf256.md R87) -/

theorem gfMul_xor_left (a b c : Byte) : gfMul (a ^^^ b) c = gfMul a c ^^^ gfMul b c := by
  rw [gfMul_comm, gfMul_xor_right, gfMul_comm c, gfMul_comm c]

theorem gfMul_left_comm (a b c : Byte) : gfMul a (gfMul b c) = gfMul b (gfMul a c) := by
  rw [gfMul_assoc, gfMul_comm a b, ← gfMul_assoc]

theorem gfMul_one_left (a : Byte) : gfMul 1 a = a := (gfMul_comm 1 a).trans (gfMul_one_right a)

theorem xor_ne_zero {a b : Byte} (h : a ≠ b) : a ^^^ b ≠ 0 := mt BitVec.xor_eq_zero_iff.mp h

theorem zero_xor_byte (a : Byte) : 0 ^^^ a = a := BitVec.zero_xor

theorem xor_zero_byte (a : Byte) : a ^^^ 0 = a := BitVec.xor_zero

theorem xor_self_byte (a : Byte) : a ^^^ a = 0 := BitVec.xor_self

/-- Exclusive or is its own subtraction. -/
theorem xor_xor_xor_cancel (u v w : Byte) : (u ^^^ w) ^^^ (w ^^^ v) = u ^^^ v :=
  calc
    (u ^^^ w) ^^^ (w ^^^ v) = (u ^^^ v) ^^^ (w ^^^ w) := by ac_rfl
    _ = u ^^^ v := by rw [xor_self_byte, xor_zero_byte]

theorem gfQuot_eq_gfMul_gfInv {a b : Byte} (ha : a ≠ 0) (hb : b ≠ 0) : gfQuot a b = gfMul a (gfInv b) :=
  calc
    gfQuot a b = gfMul (gfQuot a b) (gfMul b (gfInv b)) := by rw [gfMul_gfInv hb, gfMul_one_right]
    _ = gfMul a (gfInv b) := by rw [gfMul_assoc, gfMul_gfQuot ha hb]

/-! ### Sums and products over a list -/

section Sums

variable {α β : Type}

/-- The sum over a list, accumulated by exclusive or. -/
def xorSum (l : List α) (f : α → Byte) : Byte := l.foldl (fun acc a => acc ^^^ f a) 0

/-- The product over a list. -/
def gfProd (l : List α) (f : α → Byte) : Byte := l.foldl (fun acc a => gfMul acc (f a)) 1

theorem foldl_xor (l : List α) (f : α → Byte) (b : Byte) : l.foldl (fun acc a => acc ^^^ f a) b = b ^^^ xorSum l f := by
  induction l generalizing b with
  | nil => exact (xor_zero_byte b).symm
  | cons a l ih => rw [List.foldl_cons, xorSum, List.foldl_cons, ih, ih (0 ^^^ f a), zero_xor_byte, BitVec.xor_assoc]

theorem foldl_gfMul (l : List α) (f : α → Byte) (b : Byte) :
    l.foldl (fun acc a => gfMul acc (f a)) b = gfMul b (gfProd l f) := by
  induction l generalizing b with
  | nil => exact (gfMul_one_right b).symm
  | cons a l ih => rw [List.foldl_cons, gfProd, List.foldl_cons, ih, ih (gfMul 1 (f a)), gfMul_one_left, gfMul_assoc]

theorem xorSum_nil (f : α → Byte) : xorSum [] f = 0 := rfl

theorem gfProd_nil (f : α → Byte) : gfProd [] f = 1 := rfl

theorem xorSum_cons (a : α) (l : List α) (f : α → Byte) : xorSum (a :: l) f = f a ^^^ xorSum l f := by
  rw [xorSum, List.foldl_cons, foldl_xor, zero_xor_byte]

theorem gfProd_cons (a : α) (l : List α) (f : α → Byte) : gfProd (a :: l) f = gfMul (f a) (gfProd l f) := by
  rw [gfProd, List.foldl_cons, foldl_gfMul, gfMul_one_left]

theorem xorSum_map (g : β → α) (l : List β) (f : α → Byte) : xorSum (l.map g) f = xorSum l fun b => f (g b) :=
  List.foldl_map

theorem gfProd_map (g : β → α) (l : List β) (f : α → Byte) : gfProd (l.map g) f = gfProd l fun b => f (g b) :=
  List.foldl_map

theorem xorSum_congr {l : List α} {f g : α → Byte} (h : ∀ a ∈ l, f a = g a) : xorSum l f = xorSum l g := by
  induction l with
  | nil => rfl
  | cons a l ih =>
    rw [xorSum_cons, xorSum_cons, h a List.mem_cons_self, ih fun b hb => h b (List.mem_cons_of_mem a hb)]

theorem gfProd_congr {l : List α} {f g : α → Byte} (h : ∀ a ∈ l, f a = g a) : gfProd l f = gfProd l g := by
  induction l with
  | nil => rfl
  | cons a l ih =>
    rw [gfProd_cons, gfProd_cons, h a List.mem_cons_self, ih fun b hb => h b (List.mem_cons_of_mem a hb)]

theorem xorSum_eq_zero {l : List α} {f : α → Byte} (h : ∀ a ∈ l, f a = 0) : xorSum l f = 0 := by
  induction l with
  | nil => rfl
  | cons a l ih =>
    rw [xorSum_cons, h a List.mem_cons_self, zero_xor_byte, ih fun b hb => h b (List.mem_cons_of_mem a hb)]

theorem xorSum_eq_single {l : List α} (hl : l.Nodup) {f : α → Byte} {a : α} (ha : a ∈ l)
    (h : ∀ b ∈ l, b ≠ a → f b = 0) : xorSum l f = f a := by
  induction l with
  | nil => cases ha
  | cons b l ih =>
    obtain ⟨hb, htail⟩ := List.nodup_cons.mp hl
    rw [xorSum_cons]
    rcases List.mem_cons.mp ha with rfl | ha
    · have hrest : xorSum l f = 0 := xorSum_eq_zero fun c hc =>
        h c (List.mem_cons_of_mem a hc) fun hca => hb (hca ▸ hc)
      rw [hrest, xor_zero_byte]
    · rw [h b List.mem_cons_self fun hba => hb (hba ▸ ha), zero_xor_byte,
        ih htail ha fun c hc => h c (List.mem_cons_of_mem b hc)]

theorem gfProd_eq_one {l : List α} {f : α → Byte} (h : ∀ a ∈ l, f a = 1) : gfProd l f = 1 := by
  induction l with
  | nil => rfl
  | cons a l ih =>
    rw [gfProd_cons, h a List.mem_cons_self, gfMul_one_left, ih fun b hb => h b (List.mem_cons_of_mem a hb)]

theorem gfProd_eq_zero {l : List α} {f : α → Byte} {a : α} (ha : a ∈ l) (h : f a = 0) : gfProd l f = 0 := by
  induction l with
  | nil => cases ha
  | cons b l ih =>
    rw [gfProd_cons]
    rcases List.mem_cons.mp ha with rfl | ha
    · rw [h, gfMul_zero_left]
    · rw [ih ha, gfMul_zero_right]

end Sums

/-- A member of a list without repetition, and the rest. -/
theorem perm_cons_filter_ne {l : List Byte} (hl : l.Nodup) {a : Byte} (ha : a ∈ l) :
    l.Perm (a :: l.filter fun b => b != a) :=
  hl.erase_eq_filter a ▸ List.perm_cons_erase ha

/-! ### Polynomials -/

/-- `f` is a polynomial function of degree below `k`, in Horner's form. -/
def PolyDegLt : Nat → (Byte → Byte) → Prop
  | 0, f => ∀ x, f x = 0
  | k + 1, f => ∃ c g, PolyDegLt k g ∧ ∀ x, f x = c ^^^ gfMul x (g x)

theorem polyDegLt_zero (k : Nat) : PolyDegLt k fun _ => 0 := by
  induction k with
  | zero => exact fun _ => rfl
  | succ k ih => exact ⟨0, _, ih, fun x => by rw [gfMul_zero_right, xor_zero_byte]⟩

theorem polyDegLt_const (k : Nat) (c : Byte) : PolyDegLt (k + 1) fun _ => c :=
  ⟨c, _, polyDegLt_zero k, fun x => by rw [gfMul_zero_right, xor_zero_byte]⟩

theorem PolyDegLt.congr {k : Nat} {f g : Byte → Byte} (hf : PolyDegLt k f) (h : ∀ x, g x = f x) : PolyDegLt k g :=
  funext h ▸ hf

theorem PolyDegLt.succ {k : Nat} {f : Byte → Byte} (hf : PolyDegLt k f) : PolyDegLt (k + 1) f := by
  induction k generalizing f with
  | zero => exact (polyDegLt_zero 1).congr hf
  | succ k ih =>
    obtain ⟨c, g, hg, h⟩ := hf
    exact ⟨c, g, ih hg, h⟩

theorem PolyDegLt.mono {k n : Nat} {f : Byte → Byte} (hf : PolyDegLt k f) (h : k ≤ n) : PolyDegLt n f := by
  induction h with
  | refl => exact hf
  | step _ ih => exact ih.succ

theorem PolyDegLt.xor {k : Nat} {f g : Byte → Byte} (hf : PolyDegLt k f) (hg : PolyDegLt k g) :
    PolyDegLt k fun x => f x ^^^ g x := by
  induction k generalizing f g with
  | zero => exact fun x => show f x ^^^ g x = 0 by rw [hf x, hg x, xor_zero_byte]
  | succ k ih =>
    obtain ⟨c, f', hf', hf⟩ := hf
    obtain ⟨d, g', hg', hg⟩ := hg
    refine ⟨c ^^^ d, _, ih hf' hg', fun x => ?_⟩
    show f x ^^^ g x = _
    rw [hf, hg, gfMul_xor_right]
    ac_rfl

theorem PolyDegLt.const_mul {k : Nat} {f : Byte → Byte} (hf : PolyDegLt k f) (b : Byte) :
    PolyDegLt k fun x => gfMul b (f x) := by
  induction k generalizing f with
  | zero => exact fun x => show gfMul b (f x) = 0 by rw [hf x, gfMul_zero_right]
  | succ k ih =>
    obtain ⟨c, g, hg, h⟩ := hf
    exact ⟨gfMul b c, _, ih hg, fun x => show gfMul b (f x) = _ by rw [h, gfMul_xor_right, gfMul_left_comm b]⟩

/-- A linear factor raises the degree by one. -/
theorem PolyDegLt.linear_mul {k : Nat} {f : Byte → Byte} (hf : PolyDegLt k f) (a : Byte) :
    PolyDegLt (k + 1) fun x => gfMul (x ^^^ a) (f x) := by
  have hX : PolyDegLt (k + 1) fun x => gfMul x (f x) := ⟨0, f, hf, fun x => (zero_xor_byte _).symm⟩
  exact (hX.xor (hf.succ.const_mul a)).congr fun x => gfMul_xor_left x a (f x)

/-- The difference to the value at `a` is divisible by the linear factor of `a`. -/
theorem PolyDegLt.exists_factor {k : Nat} {f : Byte → Byte} (hf : PolyDegLt (k + 1) f) (a : Byte) :
    ∃ g, PolyDegLt k g ∧ ∀ x, f x ^^^ f a = gfMul (x ^^^ a) (g x) := by
  induction k generalizing f with
  | zero =>
    obtain ⟨c, g, hg, h⟩ := hf
    exact ⟨g, hg, fun x => by
      rw [h, h, hg, hg, gfMul_zero_right, gfMul_zero_right, gfMul_zero_right, xor_self_byte]⟩
  | succ k ih =>
    obtain ⟨c, g, hg, h⟩ := hf
    obtain ⟨q, hq, hdiff⟩ := ih hg
    refine ⟨fun x => g a ^^^ gfMul x (q x), ⟨g a, q, hq, fun _ => rfl⟩, fun x => ?_⟩
    calc
      f x ^^^ f a = (gfMul x (g x) ^^^ c) ^^^ (c ^^^ gfMul a (g a)) := by
        rw [h, h, BitVec.xor_comm (gfMul x (g x)) c]
      _ = (gfMul x (g x) ^^^ gfMul x (g a)) ^^^ (gfMul x (g a) ^^^ gfMul a (g a)) := by
        rw [xor_xor_xor_cancel, xor_xor_xor_cancel]
      _ = gfMul x (gfMul (x ^^^ a) (q x)) ^^^ gfMul (x ^^^ a) (g a) := by
        rw [← gfMul_xor_right, hdiff, ← gfMul_xor_left]
      _ = gfMul (x ^^^ a) (g a ^^^ gfMul x (q x)) := by
        rw [gfMul_left_comm, ← gfMul_xor_right, BitVec.xor_comm (gfMul x (q x))]

/-- A polynomial of degree below `k` with `k` roots is 0. -/
theorem PolyDegLt.eq_zero_of_roots {k : Nat} {f : Byte → Byte} (hf : PolyDegLt k f) {l : List Byte} (hl : l.Nodup)
    (hk : k ≤ l.length) (hroots : ∀ y ∈ l, f y = 0) (x : Byte) : f x = 0 := by
  induction k generalizing f l with
  | zero => exact hf x
  | succ k ih =>
    cases l with
    | nil => cases hk
    | cons a l =>
      obtain ⟨ha, hl⟩ := List.nodup_cons.mp hl
      obtain ⟨g, hg, hdiff⟩ := hf.exists_factor a
      have hfac (z : Byte) : f z = gfMul (z ^^^ a) (g z) := by
        rw [← hdiff z, hroots a List.mem_cons_self, xor_zero_byte]
      have hgroots : ∀ y ∈ l, g y = 0 := fun y hy => by
        have hya : y ^^^ a ≠ 0 := xor_ne_zero fun h => ha (h ▸ hy)
        have hprod : gfMul (y ^^^ a) (g y) = 0 := (hfac y).symm.trans (hroots y (List.mem_cons_of_mem a hy))
        calc
          g y = gfMul (gfMul (gfInv (y ^^^ a)) (y ^^^ a)) (g y) := by
            rw [gfMul_comm (gfInv (y ^^^ a)), gfMul_gfInv hya, gfMul_one_left]
          _ = 0 := by rw [← gfMul_assoc, hprod, gfMul_zero_right]
      rw [hfac, ih hg hl (Nat.le_of_succ_le_succ hk) hgroots, gfMul_zero_right]

/-- Two polynomials of degree below `k` that agree at `k` points are equal. -/
theorem PolyDegLt.eq_of_eq_on {k : Nat} {f g : Byte → Byte} (hf : PolyDegLt k f) (hg : PolyDegLt k g) {l : List Byte}
    (hl : l.Nodup) (hk : k ≤ l.length) (h : ∀ y ∈ l, f y = g y) (x : Byte) : f x = g x :=
  BitVec.xor_eq_zero_iff.mp ((hf.xor hg).eq_zero_of_roots hl hk (fun y hy => by rw [h y hy, xor_self_byte]) x)

/-! ### The Lagrange polynomial -/

/-- The basis value of the node `y` at any `x`, a node or not: the product of `(x xor z) / (y xor z)` over the other
nodes `z` (41_interp.md R100). -/
def nodeBasis (ys : List Byte) (x y : Byte) : Byte :=
  gfProd (ys.filter fun z => z != y) fun z => gfMul (x ^^^ z) (gfInv (y ^^^ z))

/-- The polynomial through the points `(y, v y)`, at `x`. -/
def lagrangeSum (ys : List Byte) (v : Byte → Byte) (x : Byte) : Byte :=
  xorSum ys fun y => gfMul (v y) (nodeBasis ys x y)

theorem polyDegLt_gfProd (l : List Byte) (b : Byte → Byte) :
    PolyDegLt (l.length + 1) fun x => gfProd l fun z => gfMul (x ^^^ z) (b z) := by
  induction l with
  | nil => exact polyDegLt_const 0 1
  | cons z l ih =>
    exact ((ih.const_mul (b z)).linear_mul z).congr fun x => by rw [gfProd_cons, gfMul_assoc]

theorem polyDegLt_xorSum {k : Nat} {α : Type} {l : List α} {f : α → Byte → Byte} (h : ∀ a ∈ l, PolyDegLt k (f a)) :
    PolyDegLt k fun x => xorSum l fun a => f a x := by
  induction l with
  | nil => exact polyDegLt_zero k
  | cons a l ih =>
    exact ((h a List.mem_cons_self).xor (ih fun b hb => h b (List.mem_cons_of_mem a hb))).congr fun x => xorSum_cons ..

section Nodes

variable {ys : List Byte} (hys : ys.Nodup)

include hys

theorem polyDegLt_lagrangeSum (v : Byte → Byte) : PolyDegLt ys.length (lagrangeSum ys v) := by
  refine polyDegLt_xorSum fun y hy => ?_
  have hlen : (ys.filter fun z => z != y).length + 1 = ys.length := (perm_cons_filter_ne hys hy).length_eq.symm
  exact hlen ▸ (polyDegLt_gfProd _ fun z => gfInv (y ^^^ z)).const_mul (v y)

theorem lagrangeSum_node (v : Byte → Byte) {y : Byte} (hy : y ∈ ys) : lagrangeSum ys v y = v y := by
  have hself : nodeBasis ys y y = 1 := gfProd_eq_one fun z hz =>
    gfMul_gfInv (xor_ne_zero (bne_iff_ne.mp (List.mem_filter.mp hz).2).symm)
  have hother : ∀ z ∈ ys, z ≠ y → gfMul (v z) (nodeBasis ys y z) = 0 := fun z _ hzy => by
    have hmem : y ∈ ys.filter fun u => u != z := List.mem_filter.mpr ⟨hy, bne_iff_ne.mpr hzy.symm⟩
    rw [nodeBasis, gfProd_eq_zero hmem (by rw [xor_self_byte, gfMul_zero_left]), gfMul_zero_right]
  rw [lagrangeSum, xorSum_eq_single hys hy hother, hself, gfMul_one_right]

/-- The polynomial of degree below `k` through `k` points is unique. -/
theorem lagrangeSum_eq {f v : Byte → Byte} (hf : PolyDegLt ys.length f) (h : ∀ y ∈ ys, f y = v y) (x : Byte) :
    lagrangeSum ys v x = f x :=
  (polyDegLt_lagrangeSum hys v).eq_of_eq_on hf hys (Nat.le_refl _)
    (fun y hy => (lagrangeSum_node hys v hy).trans (h y hy).symm) x

end Nodes

/-! ### The basis values of the block -/

/-- The coordinates of a share list. -/
abbrev coordinates (P : List (Byte × List Byte)) : List Byte := P.map Prod.fst

theorem not_mem_coordinates {P : List (Byte × List Byte)} {x : Byte} : x ∉ coordinates P ↔ ∀ p ∈ P, p.1 ≠ x :=
  ⟨fun h _ hp hpx => h (List.mem_map.mpr ⟨_, hp, hpx⟩), fun h hx =>
    have ⟨p, hp, hpx⟩ := List.mem_map.mp hx
    h p hp hpx⟩

theorem fst_mem_coordinates {P : List (Byte × List Byte)} {p : Byte × List Byte} (hp : p ∈ P) : p.1 ∈ coordinates P :=
  List.mem_map_of_mem hp

theorem lagrangeBasis_eq_gfProd (P : List (Byte × List Byte)) (x xi : Byte) :
    lagrangeBasis P x xi =
      gfProd ((coordinates P).filter fun y => y != xi) fun y => gfQuot (x ^^^ y) (xi ^^^ y) := by
  rw [List.filter_map, gfProd_map]
  rfl

theorem lagrangeBasis_eq_nodeBasis {P : List (Byte × List Byte)} {x : Byte} (hx : x ∉ coordinates P) (xi : Byte) :
    lagrangeBasis P x xi = nodeBasis (coordinates P) x xi := by
  rw [lagrangeBasis_eq_gfProd]
  refine gfProd_congr fun y hy => ?_
  obtain ⟨hmem, hne⟩ := List.mem_filter.mp hy
  exact gfQuot_eq_gfMul_gfInv (xor_ne_zero fun h => hx (h ▸ hmem)) (xor_ne_zero (bne_iff_ne.mp hne).symm)

theorem gfMul_gfExp_intCast (i j : Int) :
    gfMul (gfExp (i % 255).toNat) (gfExp (j % 255).toNat) = gfExp ((i + j) % 255).toNat := by
  have hsum : ((i % 255).toNat + (j % 255).toNat) % 255 = ((i + j) % 255).toNat := by omega
  rw [gfMul_gfExp (by omega) (by omega), hsum]

/-- The logarithm of a product of quotients is the difference of the sums of logarithms. -/
theorem gfProd_gfQuot (l : List Byte) (x xi : Byte) :
    gfProd l (fun y => gfQuot (x ^^^ y) (xi ^^^ y)) =
      gfExp ((((l.map fun y => gfLog (y ^^^ x)).sum : Int) - (l.map fun y => gfLog (y ^^^ xi)).sum) % 255).toNat := by
  induction l with
  | nil => exact gfExp_zero.symm
  | cons y l ih =>
    rw [gfProd_cons, ih, gfQuot, gfMul_gfExp_intCast, BitVec.xor_comm x, BitVec.xor_comm xi, List.map_cons, List.map_cons,
      List.sum_cons, List.sum_cons]
    congr 3
    omega

theorem logSum_eq_add {P : List (Byte × List Byte)} (hP : (P.map Prod.fst).Nodup) {xi : Byte}
    (hxi : xi ∈ coordinates P) (x : Byte) :
    logSum P x =
      gfLog (xi ^^^ x) + (((coordinates P).filter fun y => y != xi).map fun y => gfLog (y ^^^ x)).sum := by
  have hlogs : logSum P x = ((coordinates P).map fun y => gfLog (y ^^^ x)).sum := by
    rw [List.map_map]
    rfl
  rw [hlogs, ((perm_cons_filter_ne hP hxi).map _).sum_nat, List.map_cons, List.sum_cons]

/-- `EXP[lb_i]` is `L_i(x)` (41_interp.md R100). -/
theorem gfExp_basisLog {P : List (Byte × List Byte)} (hP : (P.map Prod.fst).Nodup) {xi : Byte}
    (hxi : xi ∈ coordinates P) (x : Byte) : gfExp (basisLog P x xi) = lagrangeBasis P x xi := by
  have hself : gfLog (xi ^^^ xi) = 0 := by rw [xor_self_byte, gfLog_zero]
  rw [lagrangeBasis_eq_gfProd, gfProd_gfQuot, basisLog, logSum_eq_add hP hxi x, logSum_eq_add hP hxi xi, hself]
  congr 3
  omega

theorem basisLog_lt (P : List (Byte × List Byte)) (x xi : Byte) : basisLog P x xi < 255 := by
  unfold basisLog
  omega

theorem basisTerm_eq_gfMul (v : Byte) {lb : Nat} (hlb : lb < 255) : basisTerm v lb = gfMul v (gfExp lb) := by
  by_cases hv : v = 0
  · rw [basisTerm, if_pos hv, hv, gfMul_zero_left]
  · rw [basisTerm, if_neg hv, gfMul, if_neg (not_or.mpr ⟨hv, gfExp_ne_zero hlb⟩), gfLog_gfExp hlb]

/-! ### The interpolation -/

theorem find?_fst_of_mem {P : List (Byte × List Byte)} (hP : (P.map Prod.fst).Nodup) {p : Byte × List Byte}
    (hp : p ∈ P) : P.find? (fun q => q.1 == p.1) = some p := by
  induction P with
  | nil => cases hp
  | cons q P ih =>
    obtain ⟨hq, htail⟩ := List.nodup_cons.mp hP
    rcases List.mem_cons.mp hp with rfl | hp
    · exact List.find?_cons_of_pos (beq_self_eq_true p.1)
    · have hne : q.1 ≠ p.1 := fun h => hq (h ▸ fst_mem_coordinates hp)
      rw [List.find?_cons, beq_eq_false_iff_ne.mpr hne, ih htail hp]

theorem interpolate_of_mem {P : List (Byte × List Byte)} (hP : (P.map Prod.fst).Nodup) {p : Byte × List Byte}
    (hp : p ∈ P) : interpolate P p.1 = p.2 := by
  rw [interpolate, find?_fst_of_mem hP hp]

theorem interpolate_of_not_mem {P : List (Byte × List Byte)} {x : Byte} (hx : x ∉ coordinates P) :
    interpolate P x = (List.range (shareLength P)).map (interpByte P x) := by
  have hnone : P.find? (fun q => q.1 == x) = none := List.find?_eq_none.mpr fun q hq h =>
    not_mem_coordinates.mp hx q hq (beq_iff_eq.mp h)
  rw [interpolate, hnone]

theorem shareLength_eq {P : List (Byte × List Byte)} {n : Nat} (hne : P ≠ []) (hlen : ∀ p ∈ P, p.2.length = n) :
    shareLength P = n := by
  cases P with
  | nil => exact absurd rfl hne
  | cons p P => exact hlen p List.mem_cons_self

theorem length_interpolate {P : List (Byte × List Byte)} {n : Nat} (hne : P ≠ []) (hP : SharesOk P n) (x : Byte) :
    (interpolate P x).length = n := by
  obtain ⟨hnodup, hlen⟩ := hP
  by_cases hx : x ∈ coordinates P
  · obtain ⟨p, hp, rfl⟩ := List.mem_map.mp hx
    rw [interpolate_of_mem hnodup hp, hlen p hp]
  · rw [interpolate_of_not_mem hx, List.length_map, List.length_range, shareLength_eq hne hlen]

/-- Off the points, a byte of the interpolation is the sum over the points in field arithmetic (41_interp.md R100). -/
theorem getD_interpolate {P : List (Byte × List Byte)} {n : Nat} (hne : P ≠ []) (hP : SharesOk P n) {x : Byte}
    (hx : x ∉ coordinates P) {m : Nat} (hm : m < n) :
    (interpolate P x).getD m 0 = xorSum P fun p => gfMul (p.2.getD m 0) (lagrangeBasis P x p.1) := by
  obtain ⟨hnodup, hlen⟩ := hP
  have hbyte : (interpolate P x).getD m 0 = interpByte P x m := by
    simp only [interpolate_of_not_mem hx, shareLength_eq hne hlen, List.getD_eq_getElem?_getD, List.getElem?_map,
      List.getElem?_range hm, Option.map_some, Option.getD_some]
  refine hbyte.trans (xorSum_congr fun p hp => ?_)
  rw [basisTerm_eq_gfMul _ (basisLog_lt P x p.1), gfExp_basisLog hnodup (fst_mem_coordinates hp)]

/-- Byte `m` of the interpolation is the evaluation of one polynomial, on the points and off them. -/
theorem getD_interpolate_eq_lagrangeSum {P : List (Byte × List Byte)} {n : Nat} (hne : P ≠ []) (hP : SharesOk P n)
    {m : Nat} (hm : m < n) (x : Byte) :
    (interpolate P x).getD m 0 = lagrangeSum (coordinates P) (fun y => (interpolate P y).getD m 0) x := by
  by_cases hx : x ∈ coordinates P
  · exact (lagrangeSum_node hP.1 (fun y => (interpolate P y).getD m 0) hx).symm
  · rw [getD_interpolate hne hP hx hm, lagrangeSum, xorSum_map]
    refine xorSum_congr fun p hp => ?_
    rw [interpolate_of_mem hP.1 hp, lagrangeBasis_eq_nodeBasis hx]

theorem eq_of_getD_eq {v w : List Byte} {n : Nat} (hv : v.length = n) (hw : w.length = n)
    (h : ∀ m, m < n → v.getD m 0 = w.getD m 0) : v = w := by
  refine List.ext_getElem (hv.trans hw.symm) fun m hm hm' => ?_
  have hget := h m (hv ▸ hm)
  rwa [List.getD_eq_getElem?_getD, List.getD_eq_getElem?_getD, List.getElem?_eq_getElem hm,
    List.getElem?_eq_getElem hm', Option.getD_some, Option.getD_some] at hget

/-- Points of the polynomial through `P`, at least as many as `P` has, determine it (41_interp.md R103). -/
theorem interpolate_eq_of_points {P R : List (Byte × List Byte)} {n : Nat} (hne : P ≠ []) (hP : SharesOk P n)
    (hR : (R.map Prod.fst).Nodup) (hk : P.length ≤ R.length) (hpts : ∀ p ∈ R, p.2 = interpolate P p.1) (z : Byte) :
    interpolate R z = interpolate P z := by
  have hneR : R ≠ [] := List.ne_nil_of_length_pos (Nat.lt_of_lt_of_le (List.length_pos_iff.mpr hne) hk)
  have hRok : SharesOk R n := ⟨hR, fun p hp => hpts p hp ▸ length_interpolate hne hP p.1⟩
  refine eq_of_getD_eq (length_interpolate hneR hRok z) (length_interpolate hne hP z) fun m hm => ?_
  have hdeg : PolyDegLt (coordinates R).length (lagrangeSum (coordinates P) fun y => (interpolate P y).getD m 0) :=
    (polyDegLt_lagrangeSum hP.1 _).mono (by rwa [List.length_map, List.length_map])
  have hnode : ∀ y ∈ coordinates R, interpolate P y = interpolate R y := fun y hy => by
    obtain ⟨p, hp, rfl⟩ := List.mem_map.mp hy
    rw [interpolate_of_mem hR hp, hpts p hp]
  rw [getD_interpolate_eq_lagrangeSum hneR hRok hm, getD_interpolate_eq_lagrangeSum hne hP hm]
  exact lagrangeSum_eq hR hdeg (fun y hy => by rw [← getD_interpolate_eq_lagrangeSum hne hP hm, hnode y hy]) z

end Sys2Proof.Machine

namespace Sys2Proof.Proofs

open Sys2Proof Sys2Proof.Machine

/-- Settles O32: the block's logarithms and the field arithmetic give one basis value. -/
theorem interpolateIsLagrange : Obligations.InterpolateIsLagrange := by
  intro P n x hne hP
  refine ⟨fun p hp hpx => hpx ▸ interpolate_of_mem hP.1 hp, fun hx => ?_⟩
  exact ⟨length_interpolate hne hP x, fun m hm => getD_interpolate hne hP (not_mem_coordinates.mpr hx) hm⟩

/-- Settles O37: the points lie on the polynomial through `P`, and they determine a polynomial of degree below `k`. -/
theorem pointsDetermineThePolynomial : Obligations.PointsDetermineThePolynomial := by
  intro P n ys hne hP hys hk z
  refine interpolate_eq_of_points hne hP ?_ (by rwa [List.length_map]) (fun p hp => ?_) z
  · have hcoord : (ys.map fun y => (y, interpolate P y)).map Prod.fst = ys := by
      rw [List.map_map]
      exact List.map_id ys
    rwa [hcoord]
  · obtain ⟨y, -, rfl⟩ := List.mem_map.mp hp
    rfl

/-- Settles O35: a permutation of a share list is as many points of the same polynomial. -/
theorem interpolateIgnoresOrder : Obligations.InterpolateIgnoresOrder := by
  intro P Q n x hP hPQ
  by_cases hne : P = []
  · subst hne
    rw [hPQ.nil_eq]
  · exact (interpolate_eq_of_points hne hP ((hPQ.map Prod.fst).nodup_iff.mp hP.1) (Nat.le_of_eq hPQ.length_eq)
      (fun p hp => (interpolate_of_mem hP.1 (hPQ.mem_iff.mpr hp)).symm) x).symm

/-- Settles O36: the basis value of the one point is the empty product. -/
theorem singleShareIsConstant : Obligations.SingleShareIsConstant := by
  intro x y v
  have hne : [(y, v)] ≠ [] := List.cons_ne_nil _ _
  have hP : SharesOk [(y, v)] v.length := by simp [SharesOk]
  by_cases hx : x ∈ coordinates [(y, v)]
  · obtain ⟨p, hp, rfl⟩ := List.mem_map.mp hx
    rw [interpolate_of_mem hP.1 hp, List.mem_singleton.mp hp]
  · have hbasis : lagrangeBasis [(y, v)] x y = 1 := by simp [lagrangeBasis]
    refine eq_of_getD_eq (length_interpolate hne hP x) rfl fun m hm => ?_
    rw [getD_interpolate hne hP hx hm, xorSum_cons, xorSum_nil, xor_zero_byte, hbasis, gfMul_one_right]

/-- Settles O38: the basis values sum to the polynomial through the points `(x_i, 1)`, which is the constant 1. -/
theorem basisValuesSumToOne : Obligations.BasisValuesSumToOne := by
  intro P x hne hP hx
  have hx := not_mem_coordinates.mpr hx
  have hone : PolyDegLt (coordinates P).length fun _ => 1 :=
    (polyDegLt_const 0 1).mono (by rw [List.length_map]; exact List.length_pos_iff.mpr hne)
  calc
    xorSum P (fun p => gfExp (basisLog P x p.1)) = lagrangeSum (coordinates P) (fun _ => 1) x := by
      rw [lagrangeSum, xorSum_map]
      refine xorSum_congr fun p hp => ?_
      rw [gfExp_basisLog hP (fst_mem_coordinates hp), lagrangeBasis_eq_nodeBasis hx, gfMul_one_left]
    _ = 1 := lagrangeSum_eq hP hone (fun _ _ => rfl) x

end Sys2Proof.Proofs

end

/-!
## The checks on the share table

`CheckShares` looks through ascending lists of slots (41_interp.md R101), so each check finds the first slot, or the first
pair of slots, that fails it.
-/
section

set_option Elab.async false

namespace Sys2Proof.Machine

/-! ### Ascending lists -/

/-- In an ascending list `find?` answers the least element with the property. -/
theorem find?_eq_some_of_least {l : List Nat} (hl : l.Pairwise (· < ·)) {p : Nat → Bool} {a : Nat} (ha : a ∈ l)
    (hpa : p a = true) (hleast : ∀ c ∈ l, c < a → p c = false) : l.find? p = some a := by
  induction l with
  | nil => cases ha
  | cons b l ih =>
    obtain ⟨hb, htail⟩ := List.pairwise_cons.mp hl
    rcases List.mem_cons.mp ha with rfl | ha
    · exact List.find?_cons_of_pos hpa
    · rw [List.find?_cons_of_neg (by simp [hleast b List.mem_cons_self (hb a ha)])]
      exact ih htail ha fun c hc => hleast c (List.mem_cons_of_mem _ hc)

/-- The first pair of equal coordinates, ordered by `s`, then `t`. -/
theorem firstDuplicate_eq_some {x : Nat → Byte} {l : List Nat} (hl : l.Pairwise (· < ·)) {a b : Nat} (ha : a ∈ l)
    (hb : b ∈ l) (hab : a < b) (hx : x a = x b)
    (hfirst : ∀ c ∈ l, ∀ d ∈ l, c < d → x c = x d → a < c ∨ (a = c ∧ b ≤ d)) :
    firstDuplicate x l = some (a, b) := by
  induction l with
  | nil => cases ha
  | cons s l ih =>
    obtain ⟨hs, htail⟩ := List.pairwise_cons.mp hl
    have hbl : s ≤ a → b ∈ l := fun hsa => (List.mem_cons.mp hb).resolve_left (by omega)
    rcases List.mem_cons.mp ha with rfl | ha
    · have hfind : l.find? (fun t => x t == x a) = some b := by
        refine find?_eq_some_of_least htail (hbl (Nat.le_refl _)) (beq_iff_eq.mpr hx.symm) fun d hd hdb =>
          beq_eq_false_iff_ne.mpr fun hxd => ?_
        have := hfirst a ha d (List.mem_cons_of_mem _ hd) (hs d hd) hxd.symm
        omega
      rw [firstDuplicate, hfind]
    · have hsa := hs a ha
      have hfind : l.find? (fun t => x t == x s) = none := by
        refine List.find?_eq_none.mpr fun d hd hxd => ?_
        have := hfirst s List.mem_cons_self d (List.mem_cons_of_mem _ hd) (hs d hd) (beq_iff_eq.mp hxd).symm
        omega
      rw [firstDuplicate, hfind]
      exact ih htail ha (hbl (Nat.le_of_lt hsa)) fun c hc d hd =>
        hfirst c (List.mem_cons_of_mem _ hc) d (List.mem_cons_of_mem _ hd)

theorem firstDuplicate_eq_none {x : Nat → Byte} {l : List Nat} (h : (l.map x).Nodup) : firstDuplicate x l = none := by
  induction l with
  | nil => rfl
  | cons s l ih =>
    obtain ⟨hs, hl⟩ := List.nodup_cons.mp h
    have hfind : l.find? (fun t => x t == x s) = none :=
      List.find?_eq_none.mpr fun t ht hxt => hs (List.mem_map.mpr ⟨t, ht, beq_iff_eq.mp hxt⟩)
    rw [firstDuplicate, hfind]
    exact ih hl

/-! ### The valid slots -/

theorem pairwise_validSlots (s : State) : (validSlots s).Pairwise (· < ·) := List.pairwise_lt_range.filter _

theorem validSlots_eq_nil {s : State} (h : ∀ a, ¬ SlotValid s a) : validSlots s = [] :=
  List.eq_nil_iff_forall_not_mem.mpr fun a ha => h a ((mem_validSlots s a).mp ha)

/-- The first of the valid slots. -/
theorem exists_validSlots_eq_cons {s : State} {a : Nat} (ha : SlotValid s a) :
    ∃ s0 rest, validSlots s = s0 :: rest ∧ SlotValid s s0 :=
  match h : validSlots s with
  | [] => absurd ((mem_validSlots s a).mpr ha) (h ▸ List.not_mem_nil)
  | s0 :: rest => ⟨s0, rest, rfl, (mem_validSlots s s0).mp (h ▸ List.mem_cons_self)⟩

/-- The first of the valid slots is the lowest. -/
theorem exists_validSlots_eq_cons_of_least {s : State} {a : Nat} (ha : SlotValid s a)
    (hleast : ∀ c, c < a → ¬ SlotValid s c) : ∃ rest, validSlots s = a :: rest := by
  obtain ⟨s0, rest, hv, hs0⟩ := exists_validSlots_eq_cons ha
  have hle : a ≤ s0 := Nat.not_lt.mp fun h => hleast s0 h hs0
  have hmem : a ∈ s0 :: rest := hv ▸ (mem_validSlots s a).mpr ha
  rcases List.mem_cons.mp hmem with rfl | hmem
  · exact ⟨rest, hv⟩
  · have := (List.pairwise_cons.mp (hv ▸ pairwise_validSlots s)).1 a hmem
    omega

/-- A check of one slot after the other ends at the first valid slot that fails it. -/
theorem find?_validSlots_eq_some {s : State} {p : Nat → Bool} {a : Nat} (ha : SlotValid s a) (hpa : p a = true)
    (hfirst : ∀ c, c < a → SlotValid s c → p c = false) : (validSlots s).find? p = some a :=
  find?_eq_some_of_least (pairwise_validSlots s) ((mem_validSlots s a).mpr ha) hpa fun c hc hca =>
    hfirst c hca ((mem_validSlots s c).mp hc)

theorem find?_validSlots_eq_none {s : State} {p : Nat → Bool} (h : ∀ c, SlotValid s c → p c = false) :
    (validSlots s).find? p = none :=
  List.find?_eq_none.mpr fun c hc hpc => by simp [h c ((mem_validSlots s c).mp hc)] at hpc

/-! ### `CheckShares` -/

/-- The length check of one slot, as `CheckShares` makes it. -/
def badSlotLen (s : State) (i : Nat) : Bool := slotLen s i == 0 || decide (s.params.maxLen < (slotLen s i).toNat)

theorem badSlotLen_eq_false_iff (s : State) (i : Nat) : badSlotLen s i = false ↔ SlotLenOk s i := by
  have hzero : slotLen s i = 0 ↔ (slotLen s i).toNat = 0 := BitVec.toNat_inj.symm
  rw [badSlotLen, Bool.or_eq_false_iff, beq_eq_false_iff_ne, decide_eq_false_iff_not, ne_eq, hzero, Nat.not_lt]

theorem badSlotLen_eq_true_iff (s : State) (i : Nat) : badSlotLen s i = true ↔ ¬ SlotLenOk s i := by
  rw [← badSlotLen_eq_false_iff, Bool.not_eq_false]

theorem checkShares_of_nil {s : State} (hv : validSlots s = []) : checkShares s = .error ⟨.badShareCount, 0⟩ := by
  rw [checkShares, hv]

section Checks

variable {s : State} {s0 : Nat} {rest : List Nat} (hv : validSlots s = s0 :: rest)

include hv

theorem checkShares_of_badSlotLen {a : Nat} (ha : (validSlots s).find? (badSlotLen s) = some a) :
    checkShares s = .error ⟨.badLength, infoOf (slotLen s a).toNat⟩ := by
  unfold badSlotLen at ha
  simp only [checkShares, hv] at ha ⊢
  rw [ha]

variable (hlen : (validSlots s).find? (badSlotLen s) = none)

include hlen

theorem checkShares_of_otherSlotLen {b : Nat}
    (hb : (validSlots s).find? (fun i => slotLen s i != slotLen s s0) = some b) :
    checkShares s =
      .error ⟨.inconsistentShareLength, infoOf ((slotLen s b).toNat * 2 ^ 16 + (slotLen s s0).toNat)⟩ := by
  unfold badSlotLen at hlen
  simp only [checkShares, hv] at hlen hb ⊢
  rw [hlen, hb]

variable (hsame : (validSlots s).find? (fun i => slotLen s i != slotLen s s0) = none)

include hsame

theorem checkShares_of_firstDuplicate {a b : Nat} (h : firstDuplicate (slotX s) (validSlots s) = some (a, b)) :
    checkShares s = .error ⟨.duplicateIndex, infoPair b a⟩ := by
  unfold badSlotLen at hlen
  simp only [checkShares, hv] at hlen hsame h ⊢
  rw [hlen, hsame, h]

theorem checkShares_of_no_duplicate (h : firstDuplicate (slotX s) (validSlots s) = none) :
    checkShares s = .ok (sharesOf s (validSlots s) (slotLen s s0).toNat, (slotLen s s0).toNat) := by
  unfold badSlotLen at hlen
  simp only [checkShares, hv] at hlen hsame h ⊢
  rw [hlen, hsame, h]

end Checks

/-! ### A table that passes -/

theorem nodup_coordinates_of_tableOk {s : State} {n : Nat} (h : TableOk s n) : ((validSlots s).map (slotX s)).Nodup := by
  obtain ⟨-, -, -, -, hx⟩ := h
  refine List.pairwise_map.mpr ((pairwise_validSlots s).imp_of_mem fun {i j} hi hj hij hxij => ?_)
  obtain ⟨hi, hvi⟩ := (mem_validSlots s i).mp hi
  obtain ⟨hj, hvj⟩ := (mem_validSlots s j).mp hj
  exact Nat.ne_of_lt hij (hx i hi j hj hvi hvj hxij)

theorem shareList_ne_nil {s : State} {n : Nat} (h : TableOk s n) : shareList s n ≠ [] := by
  obtain ⟨⟨i, hi⟩, -⟩ := h
  exact List.ne_nil_of_mem (List.mem_map_of_mem ((mem_validSlots s i).mpr hi))

theorem sharesOk_of_tableOk {s : State} {n : Nat} (h : TableOk s n) : SharesOk (shareList s n) n := by
  refine ⟨?_, fun p hp => length_of_mem_sharesOf (slots := validSlots s) hp⟩
  rw [List.map_map]
  exact nodup_coordinates_of_tableOk h

theorem checkShares_of_tableOk {s : State} {n : Nat} (h : TableOk s n) : checkShares s = .ok (shareList s n, n) := by
  have hdup := firstDuplicate_eq_none (nodup_coordinates_of_tableOk h)
  obtain ⟨⟨i, hi⟩, hlen, hn0, hn, -⟩ := h
  obtain ⟨s0, rest, hv, hs0⟩ := exists_validSlots_eq_cons hi
  have hlen (c : Nat) (hc : SlotValid s c) : (slotLen s c).toNat = n := hlen c hc.1 hc.2
  have hok : (validSlots s).find? (badSlotLen s) = none := find?_validSlots_eq_none fun c hc =>
    (badSlotLen_eq_false_iff s c).mpr (by rw [SlotLenOk, hlen c hc]; exact ⟨hn0, hn⟩)
  have hsame : (validSlots s).find? (fun i => slotLen s i != slotLen s s0) = none := find?_validSlots_eq_none fun c hc =>
    bne_eq_false_iff_eq.mpr (BitVec.eq_of_toNat_eq ((hlen c hc).trans (hlen s0 hs0).symm))
  rw [checkShares_of_no_duplicate hv hok hsame hdup, hlen s0 hs0]
  rfl

/-! ### The commands that check the table -/

theorem exec_interp_of_error {s : State} {e : Raise} (h : checkShares s = .error e) (x : Byte) :
    exec (.interp x) s = .next (reportError e s) := by
  have hbody : commandBody (.interp x) s = .error e := by simp only [commandBody, interpBody, h]
  rw [exec_eq_completeCommand, hbody, completeCommand_error]

theorem exec_recover_of_error {s : State} {e : Raise} (h : checkShares s = .error e) {k : Nat} (hk : k ≠ 0) :
    exec (.recover k) s = .next (reportError e s) := by
  have hbody : commandBody (.recover k) s = .error e := by simp only [commandBody, recoverBody, if_neg hk, h]
  rw [exec_eq_completeCommand, hbody, completeCommand_error]

theorem exec_interp_of_ok {s : State} {P : List (Byte × List Byte)} {n : Nat} (h : checkShares s = .ok (P, n))
    (x : Byte) :
    exec (.interp x) s = .next (byteResult (interpolate P x) s) := by
  have hbody : commandBody (.interp x) s = .ok (writeOut (interpolate P x) (clearResults s)) := by
    simp only [commandBody, interpBody, h]
  rw [exec_eq_completeCommand, hbody, completeCommand_ok]
  rfl

theorem reportError_eq_errorReport (e : Raise) (s : State) : reportError e s = errorReport e.err e.info.toNat s := by
  rw [errorReport, BitVec.ofNat_toNat, BitVec.setWidth_eq]
  rfl

end Sys2Proof.Machine

namespace Sys2Proof.Proofs

open Sys2Proof Sys2Proof.Machine

/-- Settles O33: both commands end with the error of the check that fails, and each check finds the first failing slot or
pair among the valid slots. -/
theorem checkSharesOrder : Obligations.CheckSharesOrder := by
  intro s i hi
  have hexec {err : CmdError} {info : Nat} (h : checkShares s = .error ⟨err, BitVec.ofNat 32 info⟩) :
      exec i s = .next (errorReport err info s) := by
    rcases hi with ⟨x, rfl⟩ | ⟨k, hk, rfl⟩
    · exact exec_interp_of_error h x
    · exact exec_recover_of_error h hk
  have hlenNone (h : ∀ c, SlotValid s c → SlotLenOk s c) : (validSlots s).find? (badSlotLen s) = none :=
    find?_validSlots_eq_none fun c hc => (badSlotLen_eq_false_iff s c).mpr (h c hc)
  refine ⟨fun hnone => ?_, fun a ha hbad hfirst => ?_, fun a b ha hleast hb hne hfirst hlen => ?_,
    fun a b ha hb hab hx hfirst hall => ?_, fun n => checkShares_of_tableOk⟩
  · exact hexec (checkShares_of_nil (validSlots_eq_nil hnone))
  · obtain ⟨s0, rest, hv, -⟩ := exists_validSlots_eq_cons ha
    exact hexec (checkShares_of_badSlotLen hv (find?_validSlots_eq_some ha ((badSlotLen_eq_true_iff s a).mpr hbad)
      fun c hca hc => (badSlotLen_eq_false_iff s c).mpr (hfirst c hca hc)))
  · obtain ⟨rest, hv⟩ := exists_validSlots_eq_cons_of_least ha hleast
    exact hexec (checkShares_of_otherSlotLen hv (hlenNone hlen) (find?_validSlots_eq_some hb (bne_iff_ne.mpr hne)
      fun c hcb hc => bne_eq_false_iff_eq.mpr (hfirst c hcb hc)))
  · obtain ⟨s0, rest, hv, hs0⟩ := exists_validSlots_eq_cons ha
    have hsame : (validSlots s).find? (fun i => slotLen s i != slotLen s s0) = none := find?_validSlots_eq_none
      fun c hc => bne_eq_false_iff_eq.mpr ((hall c hc).2.trans (hall s0 hs0).2.symm)
    have hmem {c : Nat} : c ∈ validSlots s → SlotValid s c := (mem_validSlots s c).mp
    exact hexec (checkShares_of_firstDuplicate hv (hlenNone fun c hc => (hall c hc).1) hsame
      (firstDuplicate_eq_some (pairwise_validSlots s) ((mem_validSlots s a).mpr ha) ((mem_validSlots s b).mpr hb) hab hx
        fun c hc d hd => hfirst c d (hmem hc) (hmem hd)))

/-- Settles O34: `INTERP` is the checks, then the interpolation over the table's share list. -/
theorem interpFollowsItsRule : Obligations.InterpFollowsItsRule := by
  intro s x
  refine ⟨fun e he => ?_, fun n hn => ⟨exec_interp_of_ok (checkShares_of_tableOk hn) x, ?_⟩, ?_⟩
  · rw [exec_interp_of_error he, reportError_eq_errorReport]
  · exact length_interpolate (shareList_ne_nil hn) (sharesOk_of_tableOk hn) x
  · simp [toNat_encode, Instr.opcode, Instr.operandA, Instr.operandB]

end Sys2Proof.Proofs

end

/-!
## The share table after a split, and its recovery

`SPLIT` writes slot `i` at the elements from `256 * i` on, so a slot's data are read back from its own piece of `SDATA`.
Every share of a split with threshold above 1, drawn or interpolated, is a point of the polynomial through the basis of
42_shamir.md R114, so `t` or more of them determine its values at 254 and 255 (41_interp.md R103).
-/
section

set_option Elab.async false

namespace Sys2Proof.Machine

/-! ### How a body's answer ends a command -/

theorem exec_of_errorBody {i : Instr} {s : State} {err : CmdError} {info : Nat}
    (h : commandBody i s = .error ⟨err, BitVec.ofNat 32 info⟩) : exec i s = .next (errorReport err info s) := by
  rw [exec_eq_completeCommand, h, completeCommand_error]
  rfl

theorem exec_of_bytesBody {i : Instr} {s : State} {bs : List Byte}
    (h : commandBody i s = .ok (writeOut bs (clearResults s))) : exec i s = .next (byteResult bs s) := by
  rw [exec_eq_completeCommand, h, completeCommand_ok]
  rfl

/-! ### Lengths of the hash suite (46_hash_primitives.md R170, R174) -/

theorem length_hashWords_bytes (x : HashWords) : x.bytes.length = 32 := by
  simp only [HashWords.bytes, List.length_append, length_bytesBE]

@[simp] theorem length_sha256 (m : List Byte) : (sha256 m).length = 32 := length_hashWords_bytes _

@[simp] theorem length_hmacSha256 (key msg : List Byte) : (hmacSha256 key msg).length = 32 := length_sha256 _

@[simp] theorem length_shareDigest (pad secret : List Byte) : (shareDigest pad secret).length = 4 := by
  rw [shareDigest, List.length_take, length_hmacSha256]
  rfl

/-! ### Reading back the data of the slots -/

theorem Memory.read_append_of_not_listed_left {w : Nat} {m m' : Memory w} {k : Nat} (h : ∀ c ∈ m, c.1 ≠ k) :
    Memory.read (m ++ m') k = Memory.read m' k := by
  induction m with
  | nil => rfl
  | cons c m ih =>
    rw [List.cons_append, Memory.read_cons, if_neg (h c List.mem_cons_self)]
    exact ih fun d hd => h d (List.mem_cons_of_mem c hd)

theorem Memory.read_append_of_not_listed_right {w : Nat} {m m' : Memory w} {k : Nat} (h : ∀ c ∈ m', c.1 ≠ k) :
    Memory.read (m ++ m') k = Memory.read m k := by
  induction m with
  | nil => exact Memory.read_eq_zero_of_not_listed m' k h
  | cons c m ih => rw [List.cons_append, Memory.read_cons, Memory.read_cons, ih]

/-- The first `count` slots as `SPLIT` writes them: each holds its share, and no other reads it. -/
theorem read_slotsData {shares : List (List Byte)} (hshare : ∀ v ∈ shares, v.length ≤ 256) (count i : Nat) {j : Nat}
    (hj : j < 256) :
    Memory.read ((List.range count).flatMap fun k => Memory.ofList (slotKey k 0) (shares.getD k [])) (slotKey i j) =
      if i < count then (shares.getD i []).getD j 0 else 0 := by
  induction count with
  | zero => rfl
  | succ count ih =>
    rw [List.range_succ, List.flatMap_append, List.flatMap_singleton]
    by_cases hi : i = count
    · subst hi
      rw [Memory.read_append_of_not_listed_left, Memory.read_ofList, if_pos (by simp [slotKey]),
        if_pos (Nat.lt_succ_self i), slotKey, slotKey, Nat.add_zero, Nat.add_sub_cancel_left]
      intro c hc
      obtain ⟨k, hk, hc⟩ := List.mem_flatMap.mp hc
      have := mem_slotsData hshare hc
      have := List.mem_range.mp hk
      simp only [slotKey]
      omega
    · rw [Memory.read_append_of_not_listed_right, ih]
      · simp only [show i < count + 1 ↔ i < count by omega]
      · intro c hc
        have := mem_slotsData hshare hc
        simp only [slotKey]
        omega

theorem length_zeroPadded {bs : List Byte} {len : Nat} (h : bs.length ≤ len) : (zeroPadded bs len).length = len := by
  rw [zeroPadded, List.length_append, List.length_replicate, Nat.add_sub_cancel' h]

theorem getD_zeroPadded (bs : List Byte) (len j : Nat) : (zeroPadded bs len).getD j 0 = bs.getD j 0 := by
  rw [zeroPadded, List.getD_eq_getElem?_getD, List.getD_eq_getElem?_getD]
  by_cases hj : j < bs.length
  · rw [List.getElem?_append_left hj]
  · rw [List.getElem?_append_right (Nat.not_lt.mp hj), List.getElem?_replicate,
      List.getElem?_eq_none (Nat.not_lt.mp hj)]
    split <;> rfl

theorem take_zeroPadded (bs : List Byte) (len : Nat) : (zeroPadded bs len).take bs.length = bs := List.take_left

theorem take_slotData (s : State) (i : Nat) {k n : Nat} (h : k ≤ n) : (slotData s i n).take k = slotData s i k := by
  rw [slotData, Memory.readList, ← List.map_take, List.take_range, Nat.min_eq_left h]
  rfl

/-- The shares of a split fill the table as 42_shamir.md R115 says. -/
theorem shareTableIs_writeShareTable {s : State} (hp : Config.ParamsOk s.params) {n len : Nat} {share : Nat → List Byte}
    (hlen : len ≤ s.params.maxLen) (hshare : ∀ i, (share i).length = len) :
    ShareTableIs (writeShareTable ((List.range n).map share) len s) n len share := by
  obtain ⟨-, -, hmax, -⟩ := hp
  have hget (i : Nat) : ((List.range n).map share).getD i [] = if i < n then share i else [] := by
    by_cases hi : i < n <;> simp [hi]
  have hmem : ∀ v ∈ (List.range n).map share, v.length ≤ 256 := fun v hv => by
    obtain ⟨i, -, rfl⟩ := List.mem_map.mp hv
    rw [hshare]
    omega
  refine ⟨by rw [writeShareTable_svalid, List.length_map, List.length_range], fun i _ => ⟨?_, ?_, ?_⟩⟩
  · rw [slotX, writeShareTable_sx, Memory.read_ofList]
    by_cases hi : i < n <;> simp [hi]
  · rw [slotLen, writeShareTable_slen, Memory.read_ofList]
    by_cases hi : i < n
    · simp [hi]
      omega
    · simp [hi]
  · have hle : (if i < n then share i else []).length ≤ s.params.maxLen := by
      split
      · rwa [hshare]
      · exact Nat.zero_le _
    refine eq_of_getD_eq (length_slotData ..) (length_zeroPadded hle) fun j hj => ?_
    have hread := read_slotsData hmem n i (j := j) (Nat.lt_of_lt_of_le hj hmax)
    have hkey : slotKey i 0 + j = slotKey i j := rfl
    rw [slotData, Memory.getD_readList, if_pos hj, getD_zeroPadded, writeShareTable_sdata, List.length_map,
      List.length_range, hkey, hread, hget]
    split <;> rfl

/-! ### The checks and the result of `SPLIT` -/

/-- Share `i` of a `SPLIT` with threshold `t` (42_shamir.md R115). -/
def splitShare (s : State) (t i : Nat) : List Byte :=
  if t = 1 then secretBytes s
  else if i < t - 2 then drawOf s (.share i) s.len.toNat
  else interpolate (splitBasis s t) (BitVec.ofNat 8 i)

theorem nodup_splitBasis_coordinates (s : State) {t : Nat} (ht : t ≤ 16) : (coordinates (splitBasis s t)).Nodup := by
  have hcoord : coordinates (splitBasis s t) = (List.range (t - 2)).map (BitVec.ofNat 8) ++ [254, 255] := by
    simp [coordinates, Function.comp_def]
  rw [hcoord]
  clear hcoord
  decide +revert

/-- The basis of a split is a share list of the secret's length: the digest has 4 bytes (42_shamir.md R113, R114). -/
theorem sharesOk_splitBasis {s : State} {t : Nat} (ht : t ≤ 16) (hlen : 4 ≤ s.len.toNat) :
    SharesOk (splitBasis s t) s.len.toNat := by
  refine ⟨nodup_splitBasis_coordinates s ht, fun p hp => ?_⟩
  simp only [splitBasis, List.mem_append, List.mem_map, List.mem_cons, List.not_mem_nil, or_false] at hp
  rcases hp with ⟨i, -, rfl⟩ | rfl | rfl
  · exact length_drawBytes s (.share i) s.len.toNat
  · rw [List.length_append, length_shareDigest, List.length_map, List.length_range, Nat.add_sub_cancel' hlen]
  · exact length_secretBytes s

theorem splitBasis_ne_nil (s : State) (t : Nat) : splitBasis s t ≠ [] :=
  List.append_ne_nil_of_right_ne_nil _ (List.cons_ne_nil _ _)

theorem length_splitBasis (s : State) {t : Nat} (ht : 1 < t) : (splitBasis s t).length = t := by
  rw [List.length_append, List.length_map, List.length_range]
  exact Nat.sub_add_cancel ht

/-- Every share of a split with threshold above 1 is a point of the polynomial through the basis. -/
theorem splitShare_eq_interpolate (s : State) {t : Nat} (ht : 1 < t) (ht' : t ≤ 16) (i : Nat) :
    splitShare s t i = interpolate (splitBasis s t) (BitVec.ofNat 8 i) := by
  rw [splitShare, if_neg (by omega)]
  split
  · next hi =>
    have hmem : (BitVec.ofNat 8 i, drawOf s (.share i) s.len.toNat) ∈ splitBasis s t :=
      List.mem_append_left _ (List.mem_map.mpr ⟨i, List.mem_range.mpr hi, rfl⟩)
    exact (interpolate_of_mem (nodup_splitBasis_coordinates s ht') hmem).symm
  · rfl

theorem length_splitShare {s : State} {t : Nat} (ht : t ≠ 0) (ht' : t ≤ 16) (hlen : t = 1 ∨ 4 ≤ s.len.toNat) (i : Nat) :
    (splitShare s t i).length = s.len.toNat := by
  by_cases hone : t = 1
  · rw [splitShare, if_pos hone, length_secretBytes]
  · rw [splitShare_eq_interpolate s (by omega) ht',
      length_interpolate (splitBasis_ne_nil s t) (sharesOk_splitBasis ht' (hlen.resolve_left hone))]

theorem length_drawnShares (t : Nat) (s : State) : (drawnShares t s).length = t - 2 := by
  rw [drawnShares, List.length_map, List.length_range]

theorem splitBase_drawn (s : State) (t : Nat) :
    splitBase (secretBytes s) (drawnPad s) (drawnShares t s) = splitBasis s t := by
  rw [splitBase, length_drawnShares]
  refine congrArg (· ++ _) (List.map_congr_left fun i hi => ?_)
  have hi := List.mem_range.mp hi
  simp [drawnShares, drawBytes, hi]

theorem splitShares_eq_map_splitShare {s : State} {t n : Nat} (ht : 1 < t) (htn : t ≤ n) :
    splitShares n (secretBytes s) (drawnPad s) (drawnShares t s) = (List.range n).map (splitShare s t) := by
  obtain ⟨k, rfl⟩ : ∃ k, n = t - 2 + k := Nat.exists_eq_add_of_le (by omega)
  rw [splitShares, splitBase_drawn, length_drawnShares, Nat.add_sub_cancel_left, List.range_add, List.map_append, List.map_map]
  refine congr (congrArg HAppend.hAppend (List.map_congr_left fun i hi => ?_)) (List.map_congr_left fun i _ => ?_)
  · rw [splitShare, if_neg (by omega), if_pos (List.mem_range.mp hi)]
    rfl
  · rw [Function.comp_apply, splitShare, if_neg (by omega), if_neg (by omega)]

theorem splitBody_invalidThreshold {s : State} {t n : Nat} (h : t = 0 ∨ n < t) :
    splitBody t n s = .error ⟨.invalidThreshold, infoPair n t⟩ := if_pos h

section Split

variable {s : State} {t n : Nat} (ht : t ≠ 0) (htn : t ≤ n)

include ht htn

theorem splitBody_tooManyShares (hn : 16 < n) : splitBody t n s = .error ⟨.tooManyShares, infoOf n⟩ := by
  rw [splitBody, Config.maxShareCount, if_neg (by omega), if_pos hn]

theorem splitBody_badLength (hn : n ≤ 16)
    (hlen : s.len.toNat = 0 ∨ s.params.maxLen < s.len.toNat ∨ (1 < t ∧ s.len.toNat < 4)) :
    splitBody t n s = .error ⟨.badLength, infoOf s.len.toNat⟩ := by
  have hzero : s.len = 0 ↔ s.len.toNat = 0 := BitVec.toNat_inj.symm
  rw [splitBody, Config.maxShareCount, if_neg (by omega), if_neg (Nat.not_lt.mpr hn)]
  by_cases hbad : s.len = 0 ∨ s.params.maxLen < s.len.toNat
  · rw [if_pos hbad]
  · obtain ⟨hone, hshort⟩ : 1 < t ∧ s.len.toNat < 4 := by
      rw [hzero] at hbad
      omega
    rw [if_neg hbad, if_neg (by omega), Config.digestLength, if_pos hshort]

/-- Where every check passes, the table holds the shares; what the draw counter becomes is left open (log entry 4). -/
theorem splitBody_eq_ok (hn : n ≤ 16) (hlen : s.len.toNat ≠ 0) (hmax : s.len.toNat ≤ s.params.maxLen)
    (hdigest : t = 1 ∨ 4 ≤ s.len.toNat) :
    ∃ serial, splitBody t n s = .ok
      { writeShareTable ((List.range n).map (splitShare s t)) s.len.toNat (clearResults s) with drawSerial := serial } := by
  obtain rfl | hone : t = 1 ∨ 1 < t := by omega
  · have hzero : s.len ≠ 0 := fun h => hlen (BitVec.toNat_inj.mpr h)
    have hshares : List.replicate n (secretBytes s) = (List.range n).map (splitShare s 1) := by
      rw [show splitShare s 1 = fun _ => secretBytes s from rfl, List.map_const', List.length_range]
    refine ⟨s.drawSerial, ?_⟩
    rw [splitBody, Config.maxShareCount, if_neg (by omega), if_neg (Nat.not_lt.mpr hn),
      if_neg (not_or.mpr ⟨hzero, Nat.not_lt.mpr hmax⟩), if_pos rfl, hshares]
    rfl
  · refine ⟨s.drawSerial + 1, ?_⟩
    rw [splitBody_ok hone htn hn (hdigest.resolve_left (by omega)) hmax, splitShares_eq_map_splitShare hone htn]

end Split

/-! ### The checks and the result of `RECOVER` -/

section Recover

variable {s : State} {t n : Nat} (h : TableOk s n)

include h

theorem recoverBody_one_of_length_ne_one (hcount : (shareList s n).length ≠ 1) :
    recoverBody 1 s = .error ⟨.badShareCount, infoOf (shareList s n).length⟩ := by
  rw [recoverBody, if_neg (by decide), checkShares_of_tableOk h]
  dsimp only
  rw [if_pos rfl]
  split
  · next p hp => exact absurd (by rw [hp, List.length_singleton]) hcount
  · rfl

theorem recoverBody_one_of_single {p : Byte × List Byte} (hp : shareList s n = [p]) :
    recoverBody 1 s = .ok (writeOut p.2 (clearResults s)) := by
  rw [recoverBody, if_neg (by decide), checkShares_of_tableOk h, hp]
  rfl

variable (ht : 1 < t)

include ht

theorem recoverBody_badLength (hn : n < 4) : recoverBody t s = .error ⟨.badLength, infoOf n⟩ := by
  rw [recoverBody, if_neg (by omega), checkShares_of_tableOk h]
  dsimp only
  rw [Config.digestLength, if_neg (by omega), if_pos hn]

theorem recoverBody_digest (hn : 4 ≤ n) :
    recoverBody t s =
      if digestMatches (interpolate (shareList s n) 254) (interpolate (shareList s n) 255) then
        .ok (writeOut (interpolate (shareList s n) 255) (clearResults s))
      else .error ⟨.digestMismatch, 0⟩ := by
  rw [recoverBody, if_neg (by omega), checkShares_of_tableOk h]
  dsimp only
  rw [Config.digestLength, if_neg (by omega), if_neg (Nat.not_lt.mpr hn)]
  rfl

end Recover

theorem digestMatches_iff (d secret : List Byte) :
    digestMatches d secret = true ↔ shareDigest (d.drop 4) secret = d.take 4 := beq_iff_eq

/-- The one valid slot is the one share. -/
theorem shareList_of_single {s : State} {a : Nat} (ha : SlotValid s a) (hone : ∀ b, SlotValid s b → b = a) (n : Nat) :
    shareList s n = [(slotX s a, slotData s a n)] := by
  have hv : validSlots s = [a] := by
    obtain ⟨rest, hv⟩ := exists_validSlots_eq_cons_of_least ha fun c hc hcv => absurd (hone c hcv) (Nat.ne_of_lt hc)
    cases rest with
    | nil => exact hv
    | cons b rest =>
      have hb : b = a := hone b ((mem_validSlots s b).mp (by rw [hv]; simp))
      have hlt := (List.pairwise_cons.mp (hv ▸ pairwise_validSlots s)).1 b List.mem_cons_self
      omega
  exact congrArg (List.map fun i => (slotX s i, slotData s i n)) hv

theorem lt_of_tableOk {s : State} {n : Nat} (h : TableOk s n) : n < 2 ^ 16 := by
  obtain ⟨⟨i, hi, hv⟩, hlen, -⟩ := h
  exact hlen i hi hv ▸ (slotLen s i).isLt

/-- `OUT` and `OLEN` hold the bytes a command wrote there. -/
theorem byteResult_readBack (s : State) {bs : List Byte} {n : Nat} (hbs : bs.length = n) (hn : n < 2 ^ 16) :
    (byteResult bs s).olen.toNat = n ∧ Memory.readList (byteResult bs s).out 0 n = bs := by
  subst hbs
  exact ⟨by rw [BitVec.toNat_ofNat, Nat.mod_eq_of_lt hn], Memory.readList_ofList bs 0⟩

/-! ### The slots of a split, made valid again -/

section AfterSplit

variable {u : State} {n len : Nat} {share : Nat → List Byte} (h : ShareTableIs u n len share)
  {chosen : Half} (hin : ∀ i, chosen.getLsbD i = true → i < n) (hmax : len ≤ u.params.maxLen)

include h hin hmax

theorem tableOk_of_shareTableIs (hlen : len ≠ 0)
    (hcount : 0 < ((List.range 16).filter fun i => chosen.getLsbD i).length) :
    TableOk { u with svalid := chosen } len := by
  obtain ⟨-, hslot⟩ := h
  obtain ⟨a, ha⟩ := List.exists_mem_of_length_pos hcount
  obtain ⟨ha, hva⟩ := List.mem_filter.mp ha
  refine ⟨⟨a, List.mem_range.mp ha, hva⟩, fun i hi hv => ?_, hlen, hmax, fun i hi j hj hvi hvj hx => ?_⟩
  · obtain ⟨-, hlen, -⟩ := hslot i hi
    rwa [if_pos (hin i hv)] at hlen
  · obtain ⟨hxi, -⟩ := hslot i hi
    obtain ⟨hxj, -⟩ := hslot j hj
    rw [if_pos (hin i hvi)] at hxi
    rw [if_pos (hin j hvj)] at hxj
    have hx : BitVec.ofNat 8 i = BitVec.ofNat 8 j := hxi.symm.trans (hx.trans hxj)
    simpa [Nat.mod_eq_of_lt (show i < 256 by omega), Nat.mod_eq_of_lt (show j < 256 by omega)] using
      congrArg BitVec.toNat hx

theorem shareList_of_shareTableIs (hshare : ∀ i, (share i).length = len) :
    shareList { u with svalid := chosen } len =
      ((List.range 16).filter fun i => chosen.getLsbD i).map fun i => (BitVec.ofNat 8 i, share i) := by
  obtain ⟨-, hslot⟩ := h
  refine List.map_congr_left fun i hi => ?_
  obtain ⟨hi, hv⟩ := List.mem_filter.mp hi
  obtain ⟨hx, -, hdata⟩ := hslot i (List.mem_range.mp hi)
  rw [if_pos (hin i hv)] at hx hdata
  have hshare : slotData u i len = share i := by
    rw [← take_slotData u i hmax, hdata, ← hshare i, take_zeroPadded]
  exact Prod.ext hx hshare

end AfterSplit

section Basis

variable (s : State) {t : Nat} (ht : t ≤ 16)

include ht

theorem interpolate_splitBasis_secret : interpolate (splitBasis s t) 255 = secretBytes s :=
  interpolate_of_mem (nodup_splitBasis_coordinates s ht) (p := (255, secretBytes s)) (by simp)

theorem interpolate_splitBasis_digest :
    interpolate (splitBasis s t) 254 = digestShare (drawnPad s) (secretBytes s) :=
  interpolate_of_mem (nodup_splitBasis_coordinates s ht) (p := (254, digestShare (drawnPad s) (secretBytes s)))
    (List.mem_append_right _ List.mem_cons_self)

end Basis

theorem digestMatches_digestShare (pad secret : List Byte) : digestMatches (digestShare pad secret) secret = true := by
  rw [digestMatches_iff, digestShare, List.drop_left' (length_shareDigest pad secret),
    List.take_left' (length_shareDigest pad secret)]

/-- Any `t` or more shares have the values of the basis at every point (41_interp.md R103). -/
theorem interpolate_splitShares {s : State} {t : Nat} (ht : 1 < t) (ht' : t ≤ 16) (hlen : 4 ≤ s.len.toNat)
    {slots : List Nat} (hslots : (coordinates (slots.map fun i => (BitVec.ofNat 8 i, splitShare s t i))).Nodup)
    (hcount : t ≤ slots.length) (z : Byte) :
    interpolate (slots.map fun i => (BitVec.ofNat 8 i, splitShare s t i)) z = interpolate (splitBasis s t) z := by
  refine interpolate_eq_of_points (splitBasis_ne_nil s t) (sharesOk_splitBasis ht' hlen) hslots ?_ (fun p hp => ?_) z
  · rwa [length_splitBasis s ht, List.length_map]
  · obtain ⟨i, -, rfl⟩ := List.mem_map.mp hp
    exact splitShare_eq_interpolate s ht ht' i

end Sys2Proof.Machine

namespace Sys2Proof.Proofs

open Sys2Proof Sys2Proof.Machine

/-- Settles O39: one case per check of the body, in its order; past them the table holds the shares. -/
theorem splitFollowsItsRule : Obligations.SplitFollowsItsRule := by
  intro s t n hp
  refine ⟨fun h => exec_of_errorBody (splitBody_invalidThreshold h),
    fun ht htn hn => exec_of_errorBody (splitBody_tooManyShares ht htn hn),
    fun ht htn hn hlen => exec_of_errorBody (splitBody_badLength ht htn hn hlen),
    fun ht htn hn hlen hmax hdigest => ?_, fun ht hn => ?_⟩
  · obtain ⟨serial, hbody⟩ := splitBody_eq_ok ht htn hn hlen hmax hdigest
    have hbody : commandBody (.split t n) s = .ok _ := hbody
    refine ⟨_, by rw [exec_eq_completeCommand, hbody, completeCommand_ok], ?_, rfl⟩
    exact shareTableIs_writeShareTable (s := clearResults s) hp hmax
      fun i => length_splitShare ht (Nat.le_trans htn hn) hdigest i
  · simp [toNat_encode, Instr.opcode, Instr.operandA, Instr.operandB, Nat.mod_eq_of_lt ht, Nat.mod_eq_of_lt hn]

/-- Settles O41: one case per check of the body, in its order. -/
theorem recoverFollowsItsRule : Obligations.RecoverFollowsItsRule := by
  intro s t n
  refine ⟨exec_of_errorBody rfl, fun ht e he => ?_, fun h ht hcount => ?_, fun h ht a ha hone => ?_,
    fun h ht hn => exec_of_errorBody (recoverBody_badLength h ht hn), fun h ht hn hne => ?_, fun h ht hn heq => ?_,
    fun ht => ?_⟩
  · rw [exec_recover_of_error he ht, reportError_eq_errorReport]
  · subst ht
    exact exec_of_errorBody (recoverBody_one_of_length_ne_one h hcount)
  · subst ht
    exact exec_of_bytesBody (recoverBody_one_of_single h (shareList_of_single ha hone n))
  · exact exec_of_errorBody ((recoverBody_digest h ht hn).trans (if_neg (mt (digestMatches_iff _ _).mp hne)))
  · exact exec_of_bytesBody ((recoverBody_digest h ht hn).trans (if_pos ((digestMatches_iff _ _).mpr heq)))
  · simp [toNat_encode, Instr.opcode, Instr.operandA, Instr.operandB, Nat.mod_eq_of_lt ht]

/-- Settles O43: of the three ends of `RECOVER` on such a table, the one without an error has compared the digests. -/
theorem recoverSuccessMeansDigestHeld : Obligations.RecoverSuccessMeansDigestHeld := by
  intro s u t n h ht _ hu herror
  obtain ⟨-, -, -, -, hshort, hmismatch, hmatch, -⟩ := recoverFollowsItsRule s t n
  have hn : 4 ≤ n := Nat.not_lt.mp fun hn => by
    obtain rfl := Host.Outcome.next.inj ((hshort h ht hn).symm.trans hu)
    cases herror
  by_cases hd : shareDigest ((interpolate (shareList s n) 254).drop 4) (interpolate (shareList s n) 255) =
      (interpolate (shareList s n) 254).take 4
  · obtain rfl := Host.Outcome.next.inj ((hmatch h ht hn hd).symm.trans hu)
    have hlen := length_interpolate (shareList_ne_nil h) (sharesOk_of_tableOk h) 255
    obtain ⟨holen, hout⟩ := byteResult_readBack s hlen (lt_of_tableOk h)
    exact ⟨holen, hout, hout.symm ▸ hd⟩
  · obtain rfl := Host.Outcome.next.inj ((hmismatch h ht hn hd).symm.trans hu)
    cases herror

/-- Settles O42: the chosen slots hold points of the polynomial through the basis, enough to determine its values at 254
and 255, the digest share and the secret. -/
theorem splitThenRecover : Obligations.SplitThenRecover := by
  intro s t n hp ht htn hn hlen hmax hdigest
  obtain ⟨-, -, -, hsplit, -⟩ := splitFollowsItsRule s t n hp
  obtain ⟨u, hu, htable, hframe⟩ := hsplit ht htn hn hlen hmax hdigest
  refine ⟨u, hu, fun chosen hin hcount hone => ?_⟩
  have htable : ShareTableIs u n s.len.toNat (splitShare s t) := htable
  have hmax : s.len.toNat ≤ u.params.maxLen := (congrArg State.params hframe).symm ▸ hmax
  have hshare := length_splitShare ht (Nat.le_trans htn hn) hdigest
  have hok := tableOk_of_shareTableIs htable hin hmax hlen (Nat.lt_of_lt_of_le (Nat.pos_of_ne_zero ht) hcount)
  have hlist := shareList_of_shareTableIs htable hin hmax hshare
  obtain rfl | ht : t = 1 ∨ 1 < t := by omega
  · obtain ⟨a, ha⟩ := List.length_eq_one_iff.mp (hone rfl)
    rw [ha] at hlist
    exact exec_of_bytesBody (recoverBody_one_of_single hok hlist)
  · have hdigest := hdigest.resolve_left (by omega)
    have hvalue := interpolate_splitShares ht (Nat.le_trans htn hn) hdigest (hlist ▸ sharesOk_of_tableOk hok).1 hcount
    have hbody := recoverBody_digest hok ht hdigest
    rw [hlist, hvalue, hvalue, interpolate_splitBasis_secret s (Nat.le_trans htn hn),
      interpolate_splitBasis_digest s (Nat.le_trans htn hn), if_pos (digestMatches_digestShare ..)] at hbody
    exact exec_of_bytesBody hbody

end Sys2Proof.Proofs

end

/-!
## The Feistel layer

A round swaps the halves and adds the round function to one of them, so the same round on the swapped halves takes it back
(43_feistel.md R134); the rounds keep the halves as long as the round function's value, half of an even secret.
-/
section

set_option Elab.async false

namespace Sys2Proof.Machine

/-! ### The round function (46_hash_primitives.md R175) -/

theorem length_pbkdf2Repeat (password : List Byte) (n : Nat) {u t : List Byte} (ht : t.length = 32) :
    (pbkdf2Repeat password n u t).length = 32 := by
  induction n generalizing u t with
  | zero => exact ht
  | succ n ih => exact ih (by simp [ht])

theorem length_pbkdf2Block (password salt : List Byte) (c i : Nat) : (pbkdf2Block password salt c i).length = 32 :=
  length_pbkdf2Repeat password _ (length_hmacSha256 ..)

@[simp] theorem length_pbkdf2 (password salt : List Byte) (c dkLen : Nat) :
    (pbkdf2 password salt c dkLen).length = dkLen := by
  simp only [pbkdf2, List.length_take, List.length_flatMap, length_pbkdf2Block, List.map_const', List.sum_replicate_nat,
    List.length_range]
  omega

@[simp] theorem length_feistelF (pass salt : List Byte) (c : Nat) (r : Byte) (right : List Byte) (h : Nat) :
    (feistelF pass salt c r right h).length = h := length_pbkdf2 ..

theorem xorBytes_xorBytes_cancel {a b : List Byte} (h : a.length = b.length) : xorBytes (xorBytes a b) b = a := by
  induction a generalizing b with
  | nil => rfl
  | cons x a ih =>
    cases b with
    | nil => cases h
    | cons y b =>
      have htail : xorBytes (xorBytes a b) b = a := ih (Nat.succ.inj h)
      have hhead : x ^^^ y ^^^ y = x := by rw [BitVec.xor_assoc, BitVec.xor_self, BitVec.xor_zero]
      exact List.cons_eq_cons.mpr ⟨hhead, htail⟩

/-! ### The rounds on the halves -/

/-- Both halves have `h` bytes. -/
def HalvesHaveLength (h : Nat) (lr : List Byte × List Byte) : Prop := lr.1.length = h ∧ lr.2.length = h

theorem HalvesHaveLength.swap {h : Nat} {lr : List Byte × List Byte} (hlr : HalvesHaveLength h lr) :
    HalvesHaveLength h lr.swap := And.symm hlr

/-- A secret of even length is its two halves. -/
theorem exists_halves {secret : List Byte} (heven : secret.length % 2 = 0) :
    ∃ h lr, HalvesHaveLength h lr ∧ lr.1 ++ lr.2 = secret := by
  refine ⟨secret.length / 2, (secret.take (secret.length / 2), secret.drop (secret.length / 2)),
    ⟨?_, ?_⟩, List.take_append_drop ..⟩
  · rw [List.length_take]; omega
  · rw [List.length_drop]; omega

section Rounds

variable (pass salt : List Byte) (c : Nat) {h : Nat} {lr : List Byte × List Byte} (hlr : HalvesHaveLength h lr)

include hlr

theorem halvesHaveLength_feistelRound (r : Byte) : HalvesHaveLength h (feistelRound pass salt c h lr r) := by
  obtain ⟨hl, hr⟩ := hlr
  exact ⟨hr, by simp [feistelRound, hl]⟩

theorem halvesHaveLength_feistelRounds (rs : List Byte) :
    HalvesHaveLength h (rs.foldl (feistelRound pass salt c h) lr) := by
  induction rs generalizing lr with
  | nil => exact hlr
  | cons r rs ih => exact ih (halvesHaveLength_feistelRound pass salt c hlr r)

/-- The second round adds the same value of the round function to the same half. -/
theorem feistelRound_swap_feistelRound (r : Byte) :
    feistelRound pass salt c h (feistelRound pass salt c h lr r).swap r = lr.swap := by
  obtain ⟨hl, -⟩ := hlr
  exact Prod.ext rfl (xorBytes_xorBytes_cancel (hl.trans (length_feistelF ..).symm))

/-- The rounds in the reverse order, on the swapped halves, take the rounds back one by one. -/
theorem feistelRounds_reverse_swap (rs : List Byte) :
    rs.reverse.foldl (feistelRound pass salt c h) (rs.foldl (feistelRound pass salt c h) lr).swap = lr.swap := by
  induction rs generalizing lr with
  | nil => rfl
  | cons r rs ih =>
    have htail := ih (halvesHaveLength_feistelRound pass salt c hlr r)
    rw [List.reverse_cons, List.foldl_append]
    exact (congrArg (feistelRound pass salt c h · r) htail).trans (feistelRound_swap_feistelRound pass salt c hlr r)

end Rounds

/-! ### `Crypt` -/

theorem roundOrder_not (enc : Bool) : roundOrder (!enc) = (roundOrder enc).reverse := by
  cases enc <;> rfl

/-- `Crypt` on the halves of a secret, `h` bytes each: the rounds in their order, then the halves swapped. -/
def cryptHalves (pass : List Byte) (e : BitVec 4) (id : BitVec 15) (ext : BitVec 1) (h : Nat) (enc : Bool)
    (lr : List Byte × List Byte) : List Byte × List Byte :=
  ((roundOrder enc).foldl (feistelRound pass (feistelSalt id ext) (roundIterations e.toNat) h) lr).swap

section Crypt

variable (pass : List Byte) (e : BitVec 4) (id : BitVec 15) (ext : BitVec 1) (enc : Bool)

theorem crypt_append {h : Nat} {lr : List Byte × List Byte} (hlr : HalvesHaveLength h lr) :
    crypt (lr.1 ++ lr.2) pass e id ext enc =
      (cryptHalves pass e id ext h enc lr).1 ++ (cryptHalves pass e id ext h enc lr).2 := by
  obtain ⟨hl, hr⟩ := hlr
  have hhalf : (lr.1 ++ lr.2).length / 2 = h := by rw [List.length_append]; omega
  simp only [crypt, hhalf, List.take_left' hl, List.drop_left' hl]
  rfl

theorem halvesHaveLength_cryptHalves {h : Nat} {lr : List Byte × List Byte} (hlr : HalvesHaveLength h lr) :
    HalvesHaveLength h (cryptHalves pass e id ext h enc lr) :=
  (halvesHaveLength_feistelRounds pass _ _ hlr (roundOrder enc)).swap

theorem cryptHalves_not_cryptHalves {h : Nat} {lr : List Byte × List Byte} (hlr : HalvesHaveLength h lr) :
    cryptHalves pass e id ext h (!enc) (cryptHalves pass e id ext h enc lr) = lr := by
  rw [cryptHalves, cryptHalves, roundOrder_not, feistelRounds_reverse_swap pass _ _ hlr, Prod.swap_swap]

theorem length_crypt {secret : List Byte} (heven : secret.length % 2 = 0) :
    (crypt secret pass e id ext enc).length = secret.length := by
  obtain ⟨h, lr, hlr, rfl⟩ := exists_halves heven
  obtain ⟨hl', hr'⟩ := halvesHaveLength_cryptHalves pass e id ext enc hlr
  rw [crypt_append pass e id ext enc hlr, List.length_append, List.length_append, hl', hr', hlr.1, hlr.2]

/-- Each direction of `Crypt` undoes the other (43_feistel.md R134). -/
theorem crypt_not_crypt {secret : List Byte} (heven : secret.length % 2 = 0) :
    crypt (crypt secret pass e id ext enc) pass e id ext (!enc) = secret := by
  obtain ⟨h, lr, hlr, rfl⟩ := exists_halves heven
  rw [crypt_append pass e id ext enc hlr,
    crypt_append pass e id ext (!enc) (halvesHaveLength_cryptHalves pass e id ext enc hlr),
    cryptHalves_not_cryptHalves pass e id ext enc hlr]

end Crypt

theorem roundIterations_eq (e : Nat) : roundIterations e = 2500 * 2 ^ e := by
  rw [roundIterations, Config.baseIterations]
  omega

/-! ### The checks of `ENCRYPT` and `DECRYPT` (43_feistel.md R132, R133) -/

theorem badSecretLength_iff (s : State) : badSecretLength s = true ↔ ¬ SecretLenOk s := by
  have hmin : Config.minSecret = 16 := rfl
  simp only [badSecretLength, SecretLenOk, Bool.or_eq_true, decide_eq_true_eq]
  omega

theorem notPrintable_eq_true_iff (b : Byte) : notPrintable b = true ↔ ¬ Printable b := by
  simp only [notPrintable, Printable, Bool.or_eq_true, decide_eq_true_eq, BitVec.lt_def, BitVec.reduceToNat]
  omega

theorem notPrintable_eq_false_iff (b : Byte) : notPrintable b = false ↔ Printable b := by
  rw [← Bool.not_eq_true, notPrintable_eq_true_iff, Decidable.not_not]

theorem firstNotPrintable_eq_some {s : State} {i : Nat} (hi : i < s.plen.toNat) (hbad : ¬ Printable (Memory.read s.pass i))
    (hfirst : ∀ j, j < i → Printable (Memory.read s.pass j)) : firstNotPrintable s = some i :=
  find?_eq_some_of_least List.pairwise_lt_range (List.mem_range.mpr hi) ((notPrintable_eq_true_iff _).mpr hbad)
    fun j _ hji => (notPrintable_eq_false_iff _).mpr (hfirst j hji)

theorem firstNotPrintable_eq_none {s : State} (h : ∀ i, i < s.plen.toNat → Printable (Memory.read s.pass i)) :
    firstNotPrintable s = none :=
  List.find?_eq_none.mpr fun i hi hbad => (notPrintable_eq_true_iff _).mp hbad (h i (List.mem_range.mp hi))

theorem length_crypt_secretBytes {s : State} (hlen : SecretLenOk s) (enc : Bool) :
    (crypt (secretBytes s) (passBytes s) s.itexp s.id s.extFlag enc).length = s.len.toNat := by
  obtain ⟨heven, -, -⟩ := hlen
  rw [length_crypt _ _ _ _ _ (by rwa [length_secretBytes]), length_secretBytes]

/-- The two checks both commands begin with, before the rest `r` of a body. -/
def checkLengths (s : State) (r : Except Raise State) : Except Raise State :=
  if badSecretLength s then .error ⟨.badLength, infoOf s.len.toNat⟩
  else if s.params.maxPass < s.plen.toNat then .error ⟨.badLength, infoOf s.plen.toNat⟩
  else r

/-- The rest of `ENCRYPT` past those checks: the charset check, then the result. -/
def encryptChecked (s : State) : Except Raise State :=
  (firstNotPrintable s).elim (.ok (cryptResult true s)) fun i =>
    .error ⟨.invalidPassphraseCharset, infoPair i (Memory.read s.pass i).toNat⟩

theorem encryptBody_eq (s : State) : encryptBody s = checkLengths s (encryptChecked s) := by
  rw [encryptBody, encryptChecked]
  cases firstNotPrintable s <;> rfl

theorem decryptBody_eq (s : State) : decryptBody s = checkLengths s (.ok (cryptResult false s)) := rfl

section Checks

variable {s : State}

theorem checkLengths_of_not_secretLenOk (hlen : ¬ SecretLenOk s) (r : Except Raise State) :
    checkLengths s r = .error ⟨.badLength, infoOf s.len.toNat⟩ :=
  if_pos ((badSecretLength_iff s).mpr hlen)

theorem checkLengths_of_maxPass_lt (hlen : SecretLenOk s) (hplen : s.params.maxPass < s.plen.toNat)
    (r : Except Raise State) : checkLengths s r = .error ⟨.badLength, infoOf s.plen.toNat⟩ := by
  rw [checkLengths, if_neg fun hbad => (badSecretLength_iff s).mp hbad hlen, if_pos hplen]

theorem checkLengths_of_ok (hlen : SecretLenOk s) (hplen : s.plen.toNat ≤ s.params.maxPass)
    (r : Except Raise State) : checkLengths s r = r := by
  rw [checkLengths, if_neg fun hbad => (badSecretLength_iff s).mp hbad hlen, if_neg (Nat.not_lt.mpr hplen)]

theorem encryptBody_of_not_printable (hlen : SecretLenOk s) (hplen : s.plen.toNat ≤ s.params.maxPass) {i : Nat}
    (hi : i < s.plen.toNat) (hbad : ¬ Printable (Memory.read s.pass i))
    (hfirst : ∀ j, j < i → Printable (Memory.read s.pass j)) :
    encryptBody s = .error ⟨.invalidPassphraseCharset, infoPair i (Memory.read s.pass i).toNat⟩ := by
  rw [encryptBody_eq, checkLengths_of_ok hlen hplen, encryptChecked, firstNotPrintable_eq_some hi hbad hfirst]
  rfl

theorem encryptBody_of_printable (hlen : SecretLenOk s) (hplen : s.plen.toNat ≤ s.params.maxPass)
    (hprint : ∀ i, i < s.plen.toNat → Printable (Memory.read s.pass i)) : encryptBody s = .ok (cryptResult true s) := by
  rw [encryptBody_eq, checkLengths_of_ok hlen hplen, encryptChecked, firstNotPrintable_eq_none hprint]
  rfl

end Checks

end Sys2Proof.Machine

namespace Sys2Proof.Proofs

open Sys2Proof Sys2Proof.Machine

/-- Settles O45: 4 divides the base count. -/
theorem roundIterationCount : Obligations.RoundIterationCount := by
  intro e
  have h := roundIterations_eq e
  exact ⟨h, by omega⟩

/-- Settles O46: one case per check of the body, in its order. -/
theorem encryptFollowsItsRule : Obligations.EncryptFollowsItsRule := by
  intro s
  refine ⟨fun hlen => ?_, fun hlen hplen => ?_, fun hlen hplen i hi hbad hfirst => ?_,
    fun hlen hplen hprint => ⟨?_, length_crypt_secretBytes hlen true⟩, rfl⟩
  · exact exec_of_errorBody ((encryptBody_eq s).trans (checkLengths_of_not_secretLenOk hlen _))
  · exact exec_of_errorBody ((encryptBody_eq s).trans (checkLengths_of_maxPass_lt hlen hplen _))
  · exact exec_of_errorBody (encryptBody_of_not_printable hlen hplen hi hbad hfirst)
  · exact exec_of_bytesBody (encryptBody_of_printable hlen hplen hprint)

/-- Settles O47: the two checks of the body, and past them no look at the passphrase's bytes. -/
theorem decryptFollowsItsRule : Obligations.DecryptFollowsItsRule := by
  intro s
  refine ⟨fun hlen => ?_, fun hlen hplen => ?_, fun hlen hplen => ⟨?_, length_crypt_secretBytes hlen false⟩, rfl⟩
  · exact exec_of_errorBody ((decryptBody_eq s).trans (checkLengths_of_not_secretLenOk hlen _))
  · exact exec_of_errorBody ((decryptBody_eq s).trans (checkLengths_of_maxPass_lt hlen hplen _))
  · exact exec_of_bytesBody ((decryptBody_eq s).trans (checkLengths_of_ok hlen hplen _))

/-- Settles O48: the rounds taken back one by one; `ENCRYPT` keeps every operand `DECRYPT` reads but `SEC`, and its `OUT`
reads back as the encrypted bytes. -/
theorem cryptInverse : Obligations.CryptInverse := by
  refine ⟨fun secret pass e id ext heven =>
    ⟨crypt_not_crypt pass e id ext true heven, crypt_not_crypt pass e id ext false heven⟩, fun s hlen hplen hprint => ?_⟩
  obtain ⟨-, -, -, hencrypt, -⟩ := encryptFollowsItsRule s
  obtain ⟨hexec, hcrypt⟩ := hencrypt hlen hplen hprint
  refine ⟨_, hexec, fun m hm => ?_⟩
  obtain ⟨-, -, hdecrypt, -⟩ :=
    decryptFollowsItsRule { byteResult (crypt (secretBytes s) (passBytes s) s.itexp s.id s.extFlag true) s with sec := m }
  obtain ⟨hexec', -⟩ := hdecrypt hlen hplen
  obtain ⟨-, hout⟩ := byteResult_readBack s hcrypt s.len.isLt
  obtain ⟨heven, -, -⟩ := hlen
  have hsecret := crypt_not_crypt (passBytes s) s.itexp s.id s.extFlag true
    (secret := secretBytes s) (by rwa [length_secretBytes])
  rw [← hm.trans hout] at hsecret
  exact hexec'.trans (congrArg (fun bs => Host.Outcome.next (byteResult bs _)) hsecret)

end Sys2Proof.Proofs

end

/-!
## The RS1024 checksum

A turn of `Polymod` adds the word that comes in by exclusive or, and a difference below the top word of the running value
is only shifted (44_rs1024.md R141). So three words in place of the three zero words of `RsCreate` change the result by
just their own 30-bit value, which makes the created checksum verify. A turn also loses nothing of the running value, since
the generators' low words tell the top word that selected them; so one substituted word makes a difference that stays.
-/
section

set_option Elab.async false

namespace Sys2Proof.Machine

/-! ### The loop on integers (44_rs1024.md R141) -/

theorem toNat_topWord (chk : BitVec 30) : (chk.extractLsb' 20 10).toNat = chk.toNat >>> 20 := by
  have hlt := chk.isLt
  rw [BitVec.extractLsb'_toNat, Nat.shiftRight_eq_div_pow]
  omega

theorem toNat_shiftLeft_ten (chk : BitVec 30) : (chk <<< 10).toNat = (chk.toNat &&& 0xFFFFF) <<< 10 := by
  have hmask : chk.toNat &&& 0xFFFFF = chk.toNat % 2 ^ 20 := Nat.and_two_pow_sub_one_eq_mod _ 20
  rw [BitVec.toNat_shiftLeft, hmask, Nat.shiftLeft_eq, Nat.shiftLeft_eq]
  omega

/-- The loop of `Polymod` adds the selected constants to the shifted value, the block adds up the constants first. -/
theorem toNat_xor_rsFeedback (c : BitVec 30) (b : MnWord) :
    (c ^^^ rsFeedback b).toNat =
      (List.range 10).foldl (fun c i => if b.toNat.testBit i then c ^^^ (rsGenerator.getD i 0).toNat else c) c.toNat := by
  have hstart : (c ^^^ 0#30).toNat = c.toNat := congrArg BitVec.toNat BitVec.xor_zero
  rw [← hstart]
  refine (List.foldl_hom (fun acc : BitVec 30 => (c ^^^ acc).toNat) fun acc i => ?_).symm
  rw [BitVec.testBit_toNat]
  split
  · rw [← BitVec.toNat_xor, BitVec.xor_assoc]
  · rfl

theorem toNat_polymodStep (chk : BitVec 30) (v : MnWord) :
    (polymodStep chk v).toNat = polymodNatStep chk.toNat v.toNat := by
  have hv : (v.setWidth 30).toNat = v.toNat := BitVec.toNat_setWidth_of_le (by decide)
  rw [polymodStep, toNat_xor_rsFeedback, BitVec.toNat_xor, hv, toNat_topWord, toNat_shiftLeft_ten, polymodNatStep]

theorem toNat_polymod (vs : List MnWord) : (polymod vs).toNat = polymodNat (vs.map BitVec.toNat) := by
  rw [polymodNat, List.foldl_map]
  exact (List.foldl_hom BitVec.toNat fun chk v => (toNat_polymodStep chk v).symm).symm

/-! ### The running value of `Polymod` -/

theorem polymodStep_eq_xor (chk : BitVec 30) (v : MnWord) : polymodStep chk v = polymodStep chk 0 ^^^ v.setWidth 30 := by
  have hzero : (0 : MnWord).setWidth 30 = 0#30 := rfl
  rw [polymodStep, polymodStep, hzero, BitVec.xor_zero]
  ac_rfl

theorem shiftLeft_xor_eq_append {n : Nat} (d : BitVec n) (v : MnWord) :
    d.setWidth 30 <<< 10 ^^^ v.setWidth 30 = (d ++ v).setWidth 30 := by
  ext i hi
  by_cases hlow : i < 10
  · simp [BitVec.getLsbD_append, hlow]
  · simp [BitVec.getLsbD_append, hlow, BitVec.getLsbD_of_ge v i (by omega)]

theorem topWord_setWidth {n : Nat} (hn : n ≤ 20) (d : BitVec n) : (d.setWidth 30).extractLsb' 20 10 = 0#10 := by
  ext i hi
  simp [BitVec.getLsbD_of_ge d (20 + i) (by omega)]

/-- A difference below the top word selects no constants: it is shifted with the running value, and the word that comes
in stands after it. -/
theorem polymodStep_xor {n : Nat} (hn : n ≤ 20) (d : BitVec n) (chk : BitVec 30) (v : MnWord) :
    polymodStep (chk ^^^ d.setWidth 30) v = polymodStep chk 0 ^^^ (d ++ v).setWidth 30 := by
  have htop : (chk ^^^ d.setWidth 30).extractLsb' 20 10 = chk.extractLsb' 20 10 := by
    rw [BitVec.extractLsb'_xor, topWord_setWidth hn, BitVec.xor_zero]
  rw [polymodStep_eq_xor, polymodStep, polymodStep, htop, BitVec.shiftLeft_xor_distrib, ← shiftLeft_xor_eq_append]
  ac_rfl

/-- Words are below the top word until the third has come in, so they leave the selected constants as they are
(44_rs1024.md R143). -/
theorem foldl_polymodStep_three (chk : BitVec 30) (a b c : MnWord) :
    [a, b, c].foldl polymodStep chk = [0, 0, 0].foldl polymodStep chk ^^^ (a ++ b ++ c) := by
  simp only [List.foldl_cons, List.foldl_nil]
  rw [polymodStep_eq_xor chk a, polymodStep_xor (by decide) a, polymodStep_xor (by decide) (a ++ b), BitVec.setWidth_eq]

theorem polymod_append_three (ws : List MnWord) (a b c : MnWord) :
    polymod (ws ++ [a, b, c]) = polymod (ws ++ [0, 0, 0]) ^^^ (a ++ b ++ c) := by
  simp only [polymod, List.foldl_append, foldl_polymodStep_three _ a b c]

theorem append_extractLsb'_words (p : BitVec 30) :
    p.extractLsb' 20 10 ++ p.extractLsb' 10 10 ++ p.extractLsb' 0 10 = p := by
  have htop : p.extractLsb' 20 10 ++ p.extractLsb' 10 10 = p.extractLsb' 10 20 :=
    BitVec.extractLsb'_append_extractLsb'_eq_extractLsb' rfl
  rw [htop]
  exact (BitVec.extractLsb'_append_extractLsb'_eq_extractLsb' rfl).trans BitVec.extractLsb'_eq_self

/-! ### No turn loses a difference (44_rs1024.md R146) -/

/-- Division by `x` in GF(1024), built on `x ^ 10 + x ^ 3 + 1` (44_rs1024.md R140). -/
def divX (a : MnWord) : MnWord := if a.getLsbD 0 then (a >>> 1) ^^^ 0x204 else a >>> 1

/-- The low word of `GEN[i]` is `64 = x ^ 6` times `x ^ i` (44_rs1024.md R140), so the low word of the selected sum is
`x ^ 6` times the word that selects; evaluated for each of the 1024 words. -/
theorem divX_rsFeedback (b : MnWord) : Nat.repeat divX 6 ((rsFeedback b).setWidth 10) = b := by
  decide +revert +kernel

/-- The low word after a turn holds nothing of the shifted value. -/
theorem setWidth_polymodStep (chk : BitVec 30) (v : MnWord) :
    (polymodStep chk v).setWidth 10 = v ^^^ (rsFeedback (chk.extractLsb' 20 10)).setWidth 10 := by
  have hshift : (chk <<< 10).setWidth 10 = 0#10 := by ext i hi; simp
  rw [polymodStep, BitVec.setWidth_xor, BitVec.setWidth_xor, hshift, BitVec.zero_xor,
    BitVec.setWidth_setWidth_of_le _ (by decide), BitVec.setWidth_eq]

/-- The top word and the words the shift keeps are the whole value. -/
theorem eq_of_topWord_eq {x y : BitVec 30} (htop : x.extractLsb' 20 10 = y.extractLsb' 20 10)
    (hrest : x <<< 10 = y <<< 10) : x = y := by
  have htop := congrArg BitVec.toNat htop
  have hrest := congrArg BitVec.toNat hrest
  rw [toNat_topWord, toNat_topWord, Nat.shiftRight_eq_div_pow, Nat.shiftRight_eq_div_pow] at htop
  rw [BitVec.toNat_shiftLeft, BitVec.toNat_shiftLeft, Nat.shiftLeft_eq, Nat.shiftLeft_eq] at hrest
  exact BitVec.eq_of_toNat_eq (by omega)

/-- The running value before a turn can be found from the one after it: the low word gives the top word back. -/
theorem polymodStep_injective (v : MnWord) : Function.Injective (polymodStep · v) := by
  intro x y h
  dsimp only at h
  have htop : x.extractLsb' 20 10 = y.extractLsb' 20 10 := by
    have hlow := congrArg (BitVec.setWidth 10) h
    rw [setWidth_polymodStep, setWidth_polymodStep, BitVec.xor_right_inj] at hlow
    rw [← divX_rsFeedback (x.extractLsb' 20 10), hlow, divX_rsFeedback]
  have hrest : x <<< 10 = y <<< 10 := by
    rwa [polymodStep, polymodStep, htop, BitVec.xor_left_inj, BitVec.xor_left_inj] at h
  exact eq_of_topWord_eq htop hrest

theorem foldl_polymodStep_injective (ws : List MnWord) : Function.Injective (ws.foldl polymodStep) := by
  induction ws with
  | nil => exact Function.injective_id
  | cons w ws ih => exact ih.comp (polymodStep_injective w)

theorem polymodStep_right_injective (chk : BitVec 30) : Function.Injective (polymodStep chk) := by
  intro v w h
  have hlow := congrArg (BitVec.setWidth 10) h
  rwa [setWidth_polymodStep, setWidth_polymodStep, BitVec.xor_left_inj] at hlow

theorem polymod_substitution_injective (before after : List MnWord) :
    Function.Injective fun v => polymod (before ++ v :: after) := by
  intro v w h
  simp only [polymod, List.foldl_append, List.foldl_cons] at h
  exact polymodStep_right_injective _ (foldl_polymodStep_injective after h)

/-! ### The commands (44_rs1024.md R144, R145) -/

theorem rscreateBody_of_fits {s : State} (h : s.wlen.toNat + 3 ≤ s.params.maxWords) :
    rscreateBody s = .ok (writeWords s.wlen.toNat (rsCreate (mnemonicWords s) s.extFlag) (clearResults s)) :=
  if_neg (Nat.not_lt.mpr h)

theorem rsverifyBody_of_fits {s : State} (h : s.wlen.toNat ≤ s.params.maxWords) :
    rsverifyBody s = .ok (writeR0 (if rsVerify (mnemonicWords s) s.extFlag then 1 else 0) (clearResults s)) :=
  if_neg (Nat.not_lt.mpr h)

end Sys2Proof.Machine

namespace Sys2Proof.Proofs

open Sys2Proof Sys2Proof.Machine

/-- Settles O49: turn by turn the vector has the value of the integer; a vector of 30 bits is below `2 ^ 30`. -/
theorem polymodIsTheIntegerLoop : Obligations.PolymodIsTheIntegerLoop := fun vs =>
  ⟨toNat_polymod vs, toNat_polymod vs ▸ (polymod vs).isLt⟩

/-- Settles O50: the three words are the difference of the result for zero words and 1. -/
theorem createdChecksumVerifies : Obligations.CreatedChecksumVerifies := by
  intro data ext
  rw [rsVerify, rsCreate, ← List.append_assoc, polymod_append_three, append_extractLsb'_words, ← BitVec.xor_assoc,
    BitVec.xor_self, BitVec.zero_xor]
  rfl

/-- Settles O51: with both words the result would be 1, so the words would be equal. -/
theorem singleWordErrorDetected : Obligations.SingleWordErrorDetected := by
  intro ws k v ext hk hverify hne
  have hsplit (u : MnWord) :
      customization ext ++ ws.set k u = (customization ext ++ ws.take k) ++ u :: ws.drop (k + 1) := by
    rw [List.set_eq_take_append_cons_drop, if_pos hk, List.append_assoc]
  rw [← List.set_getElem_self hk] at hverify
  refine Bool.eq_false_iff.mpr fun hv => hne ?_
  rw [rsVerify, beq_iff_eq, hsplit] at hv hverify
  have hget : ws[k] = ws.getD k 0 := List.getElem_eq_getD 0
  exact (polymod_substitution_injective _ _ (hv.trans hverify.symm)).trans hget

/-- Settles O52: at most 256 words fit, so `WLEN` does not wrap around. -/
theorem rscreateFollowsItsRule : Obligations.RscreateFollowsItsRule := by
  intro s hp
  refine ⟨fun h => exec_of_errorBody (if_pos h), fun h => ?_, rfl⟩
  have hbody : commandBody .rscreate s = .ok _ := rscreateBody_of_fits h
  refine ⟨_, by rw [exec_eq_completeCommand, hbody, completeCommand_ok], ?_, fun j => ?_, rfl⟩
  · obtain ⟨-, -, -, -, -, hmax⟩ := hp
    exact Nat.mod_eq_of_lt (show s.wlen.toNat + 3 < 2 ^ 16 by omega)
  · exact Memory.read_writeList ..

/-- Settles O53: one case per end of the body; a mismatch is no error. -/
theorem rsverifyFollowsItsRule : Obligations.RsverifyFollowsItsRule := fun _ =>
  ⟨fun h => exec_of_errorBody (if_pos h), fun h => exec_of_scalarBody (rsverifyBody_of_fits h), rfl⟩

end Sys2Proof.Proofs

end

/-!
## Mnemonics

`wordsBE` and `intWords`, `bytesBE` and `intBE` are inverse to each other on numbers that fit (00_scope.md R7), and so are
the header packing and `Unpack` (45_mnemonic.md R152, R157): the fields divide the 40 bits between them. For an even
length the padding is the exact excess of the value words over the bytes (R154), so `MNDEC` finds the length, the value
and the flag that `MNENC` packed.
-/
section

set_option Elab.async false

namespace Sys2Proof.Machine

/-! ### Digits of a number (00_scope.md R7) -/

theorem toDigits_succ (w n v : Nat) : toDigits w (n + 1) v = toDigits w n (v / 2 ^ w) ++ [BitVec.ofNat w v] := by
  rw [toDigits, toDigits, List.range_succ, List.map_append]
  refine congrArg₂ (· ++ ·) (List.map_congr_left fun i hi => ?_) (by simp)
  have hi := List.mem_range.mp hi
  have hpow : w * (n + 1 - 1 - i) = w + w * (n - 1 - i) := by
    rw [show n + 1 - 1 - i = n - 1 - i + 1 by omega, Nat.mul_succ, Nat.add_comm]
  rw [hpow, Nat.pow_add, Nat.div_div_eq_div_mul]

theorem ofDigits_concat {w : Nat} (ds : List (BitVec w)) (d : BitVec w) :
    ofDigits (ds ++ [d]) = ofDigits ds * 2 ^ w + d.toNat := by
  rw [ofDigits, List.foldl_concat, ofDigits]

theorem ofDigits_toDigits {w n v : Nat} (h : v < 2 ^ (w * n)) : ofDigits (toDigits w n v) = v := by
  induction n generalizing v with
  | zero =>
    rw [Nat.mul_zero, Nat.pow_zero, Nat.lt_one_iff] at h
    rw [h]
    rfl
  | succ n ih =>
    rw [Nat.mul_succ, Nat.pow_add, Nat.mul_comm] at h
    rw [toDigits_succ, ofDigits_concat, ih (Nat.div_lt_of_lt_mul h), BitVec.toNat_ofNat, Nat.div_add_mod']

theorem toDigits_ofDigits {w : Nat} (ds : List (BitVec w)) : toDigits w ds.length (ofDigits ds) = ds := by
  induction ds using List.reverseRecOn with
  | nil => rfl
  | append_singleton ds d ih =>
    have hdiv : (ofDigits ds * 2 ^ w + d.toNat) / 2 ^ w = ofDigits ds := by
      rw [Nat.mul_comm, Nat.mul_add_div (Nat.two_pow_pos w), Nat.div_eq_of_lt d.isLt, Nat.add_zero]
    have hmod : BitVec.ofNat w (ofDigits ds * 2 ^ w + d.toNat) = d := by
      apply BitVec.eq_of_toNat_eq
      rw [BitVec.toNat_ofNat, Nat.mul_add_mod', Nat.mod_eq_of_lt d.isLt]
    rw [List.length_append, List.length_singleton, toDigits_succ, ofDigits_concat, hdiv, ih, hmod]

/-- Reading back a sequence written into an array gives the sequence. -/
theorem Memory.readList_writeList {w : Nat} (m : Memory w) (base : Nat) (vs : List (BitVec w)) :
    Memory.readList (Memory.writeList m base vs) base vs.length = vs := by
  apply List.ext_getElem (Memory.length_readList ..)
  intro i h1 h2
  simp [Memory.readList, Memory.read_writeList, h2]

/-! ### The header (45_mnemonic.md R152, R157) -/

/-- A field of a word, in the terms of the packing. -/
theorem toNat_extractLsb'_eq_div_mod {n : Nat} (x : BitVec n) (start len : Nat) :
    (x.extractLsb' start len).toNat = x.toNat / 2 ^ start % 2 ^ len := by
  rw [BitVec.extractLsb'_toNat, Nat.shiftRight_eq_div_pow]

@[simp] theorem length_headerWords (h : Header) : (headerWords h).length = 4 := rfl

theorem ofDigits_headerWords {h : Header} (hok : HeaderOk h) : ofDigits (headerWords h) = headerInteger h := by
  obtain ⟨hgt, hgc, hmt⟩ := hok
  simp only [headerWords, headerInteger, ofDigits_cons, ofDigits_nil, List.length_cons, List.length_nil,
    BitVec.toNat_ofNat]
  omega

/-- Each field comes back from its place in the words; with thresholds and counts in 1 to 16 nothing is cut off. -/
theorem unpackHeader_headerWords_append {h : Header} (hok : HeaderOk h) (rest : List MnWord) :
    unpackHeader (headerWords h ++ rest) = h := by
  obtain ⟨id, ext, itexp, gi, gt, gc, mi, mt⟩ := h
  obtain ⟨hgt, hgc, hmt⟩ := hok
  dsimp only at hgt hgc hmt
  simp only [unpackHeader, headerWords, List.cons_append, List.getD_cons_zero, List.getD_cons_succ, Header.mk.injEq,
    BitVec.toNat_eq, BitVec.toNat_ofNat, toNat_extractLsb'_eq_div_mod]
  refine ⟨?_, ?_, ?_, ?_, ?_, ?_, ?_, ?_⟩ <;> omega

theorem headerOk_unpackHeader (ws : List MnWord) : HeaderOk (unpackHeader ws) := by
  simp only [unpackHeader, HeaderOk, FieldOk, BitVec.toNat_ofNat]
  omega

theorem headerWords_unpackHeader (w0 w1 w2 w3 : MnWord) :
    headerWords (unpackHeader [w0, w1, w2, w3]) = [w0, w1, w2, w3] := by
  simp only [unpackHeader, headerWords, List.getD_cons_zero, List.getD_cons_succ, List.cons.injEq, and_true,
    BitVec.toNat_eq, BitVec.toNat_ofNat, toNat_extractLsb'_eq_div_mod]
  refine ⟨?_, ?_, ?_, ?_⟩ <;> omega

/-! ### The value words (45_mnemonic.md R153, R154) -/

/-- The excess of the value words over an even number of bytes is even and below 10, and the bits of the bytes are whole
multiples of 16. -/
theorem paddingBits_valueWordCount {n : Nat} (heven : n % 2 = 0) :
    paddingBits (valueWordCount n) = 10 * valueWordCount n - 8 * n ∧ paddingBits (valueWordCount n) ≤ 8 ∧
      8 * n ≤ 10 * valueWordCount n := by
  obtain ⟨m, rfl⟩ := Nat.dvd_of_mod_eq_zero heven
  obtain ⟨d, hd⟩ : ∃ d, 10 * valueWordCount (2 * m) = 16 * m + 2 * d :=
    ⟨5 * valueWordCount (2 * m) - 8 * m, by rw [valueWordCount]; omega⟩
  have hlt : d ≤ 4 := by
    rw [valueWordCount] at hd
    omega
  have hmod : (16 * m + 2 * d) % 16 = 2 * d := by omega
  rw [paddingBits, hd, hmod]
  omega

theorem valueLength_valueWordCount {n : Nat} (heven : n % 2 = 0) : valueLength (valueWordCount n) = n := by
  obtain ⟨hpad, -, hfit⟩ := paddingBits_valueWordCount heven
  rw [valueLength, hpad]
  omega

theorem intBE_lt (v : List Byte) : intBE v < 2 ^ (8 * v.length) := ofDigits_lt v

theorem bytesBE_intBE (v : List Byte) : bytesBE (intBE v) v.length = v := toDigits_ofDigits v

theorem intWords_valueWords (v : List Byte) : intWords (valueWords v) = intBE v := by
  refine ofDigits_toDigits (Nat.lt_of_lt_of_le (intBE_lt v) (Nat.pow_le_pow_right (by decide) ?_))
  rw [valueWordCount]
  omega

/-! ### `MNENC` (45_mnemonic.md R155, R156) -/

/-- The mnemonic of a state: its header and value words and their checksum. -/
def encodedWords (s : State) : List MnWord :=
  mnemonicBody (headerRegs s) (secretBytes s) ++ rsCreate (mnemonicBody (headerRegs s) (secretBytes s)) s.extFlag

/-- What a state becomes that `MNENC` finds no error in. -/
def mnencResult (s : State) : State := finishCommand (writeWords 0 (encodedWords s) (clearResults s))

theorem length_encodedWords (s : State) : (encodedWords s).length = 7 + (8 * s.len.toNat + 9) / 10 := by
  rw [encodedWords, List.length_append, length_mnemonicBody, length_secretBytes, length_rsCreate]
  omega

theorem encodedWords_eq (s : State) :
    encodedWords s =
      headerWords (headerRegs s) ++
        (valueWords (secretBytes s) ++ rsCreate (mnemonicBody (headerRegs s) (secretBytes s)) s.extFlag) := by
  rw [encodedWords, mnemonicBody, List.append_assoc]

theorem unpackHeader_encodedWords {s : State} (hok : HeaderOk (headerRegs s)) :
    unpackHeader (encodedWords s) = headerRegs s := by
  rw [encodedWords_eq, unpackHeader_headerWords_append hok]

/-- The value words stand between the four header words and the checksum. -/
theorem take_drop_encodedWords (s : State) :
    ((encodedWords s).drop 4).take (valueWordCount s.len.toNat) = valueWords (secretBytes s) := by
  have hlength : (valueWords (secretBytes s)).length = valueWordCount s.len.toNat := by
    rw [valueWords, length_wordsBE, length_secretBytes]
  rw [encodedWords_eq, List.drop_left' (length_headerWords _), List.take_left' hlength]

theorem outOfField_iff (f : BitVec 5) : outOfField f = true ↔ ¬ FieldOk f := by
  have hzero : f = 0 ↔ f.toNat = 0 := BitVec.toNat_eq
  simp only [outOfField, FieldOk, Bool.or_eq_true, decide_eq_true_eq, hzero]
  omega

theorem not_badSecretLength {s : State} (hlen : SecretLenOk s) : ¬ badSecretLength s = true := fun hbad =>
  (badSecretLength_iff s).mp hbad hlen

theorem not_outOfField {f : BitVec 5} (hf : FieldOk f) : ¬ outOfField f = true := fun hbad => (outOfField_iff f).mp hbad hf

theorem mnencBody_of_headerOk {s : State} (hlen : SecretLenOk s) (hgt : FieldOk s.gt) (hgc : FieldOk s.gc)
    (hmt : FieldOk s.mt) :
    mnencBody s =
      if s.gc < s.gt then .error ⟨.groupCountInconsistent, infoPair s.gc.toNat s.gt.toNat⟩
      else .ok (writeWords 0 (encodedWords s) (clearResults s)) := by
  rw [mnencBody, if_neg (not_badSecretLength hlen), if_neg (not_outOfField hgt), if_neg (not_outOfField hgc),
    if_neg (not_outOfField hmt)]
  rfl

theorem exec_mnenc {s : State} (hlen : SecretLenOk s) (hok : HeaderOk (headerRegs s)) (hle : s.gt.toNat ≤ s.gc.toNat) :
    exec .mnenc s = .next (mnencResult s) := by
  obtain ⟨hgt, hgc, hmt⟩ := hok
  have hbody : commandBody .mnenc s = .ok _ :=
    (mnencBody_of_headerOk hlen hgt hgc hmt).trans (if_neg (Nat.not_lt.mpr hle))
  rw [exec_eq_completeCommand, hbody, completeCommand_ok, mnencResult]

theorem toNat_wlen_mnencResult {s : State} (hp : Config.ParamsOk s.params) (hlen : SecretLenOk s) :
    (mnencResult s).wlen.toNat = 7 + (8 * s.len.toNat + 9) / 10 := by
  obtain ⟨-, -, hmax, -⟩ := hp
  obtain ⟨-, -, hfit⟩ := hlen
  rw [← length_encodedWords]
  refine (congrArg (· % 2 ^ 16) (Nat.zero_add _)).trans (Nat.mod_eq_of_lt ?_)
  rw [length_encodedWords]
  omega

/-- A mnemonic is long enough for `MNDEC`, and by the constraint on the capacities it fits (00_scope.md R5). -/
theorem wlen_mnencResult_bounds {s : State} (hp : Config.ParamsOk s.params) (hlen : SecretLenOk s) :
    20 ≤ (mnencResult s).wlen.toNat ∧ (mnencResult s).wlen.toNat ≤ (mnencResult s).params.maxWords := by
  have hparams : (mnencResult s).params = s.params := rfl
  rw [toNat_wlen_mnencResult hp hlen, hparams]
  obtain ⟨-, -, -, -, hwords, -⟩ := hp
  obtain ⟨-, hmin, hmax⟩ := hlen
  omega

theorem mnemonicWords_mnencResult {s : State} (hp : Config.ParamsOk s.params) (hlen : SecretLenOk s) :
    mnemonicWords (mnencResult s) = encodedWords s := by
  rw [mnemonicWords, toNat_wlen_mnencResult hp hlen, ← length_encodedWords]
  exact Memory.readList_writeList ..

/-! ### `MNDEC` (45_mnemonic.md R158) -/

/-- `MNDEC` past the checksum: the value of the words has to fit, and the header has to be consistent. -/
def mndecVerified (s : State) (w : List MnWord) (vw : Nat) : Except Raise State :=
  if 8 < paddingBits vw then .error ⟨.invalidPadding, infoOf (paddingBits vw)⟩
  else if 2 ^ (8 * valueLength vw) ≤ valueInteger w then .error ⟨.invalidPadding, infoOf (paddingBits vw)⟩
  else if (unpackHeader w).gc < (unpackHeader w).gt then
    .error ⟨.groupCountInconsistent, infoPair (unpackHeader w).gc.toNat (unpackHeader w).gt.toNat⟩
  else if s.params.maxLen < valueLength vw then .error ⟨.badLength, infoOf (valueLength vw)⟩
  else .ok (writeHeaderRegs (unpackHeader w) (writeOut (bytesBE (valueInteger w) (valueLength vw)) (clearResults s)))

theorem valueInteger_mnemonicWords (s : State) :
    valueInteger (mnemonicWords s) = intWords (((mnemonicWords s).drop 4).take (s.wlen.toNat - 7)) := by
  rw [valueInteger, length_mnemonicWords]

theorem mndecBody_of_lengths {s : State} (hmax : s.wlen.toNat ≤ s.params.maxWords)
    (hmin : Config.minWords ≤ s.wlen.toNat) :
    mndecBody s =
      if rsVerify (mnemonicWords s) (unpackHeader (mnemonicWords s)).extFlag = true then
        mndecVerified s (mnemonicWords s) (s.wlen.toNat - 7)
      else .error ⟨.invalidChecksum, 0⟩ := by
  rw [mndecBody, if_neg (Nat.not_lt.mpr hmax), if_neg (Nat.not_lt.mpr hmin)]
  dsimp only
  cases rsVerify (mnemonicWords s) (unpackHeader (mnemonicWords s)).extFlag <;> rfl

theorem mndecVerified_of_bad_padding {s : State} {w : List MnWord} {vw : Nat}
    (hbad : 8 < paddingBits vw ∨ 2 ^ (8 * valueLength vw) ≤ valueInteger w) :
    mndecVerified s w vw = .error ⟨.invalidPadding, infoOf (paddingBits vw)⟩ := by
  by_cases hpad : 8 < paddingBits vw
  · exact if_pos hpad
  · exact (if_neg hpad).trans (if_pos (hbad.resolve_left hpad))

theorem mndecVerified_of_padding {s : State} {w : List MnWord} {vw : Nat} (hpad : paddingBits vw ≤ 8)
    (hval : valueInteger w < 2 ^ (8 * valueLength vw)) :
    mndecVerified s w vw =
      if (unpackHeader w).gc < (unpackHeader w).gt then
        .error ⟨.groupCountInconsistent, infoPair (unpackHeader w).gc.toNat (unpackHeader w).gt.toNat⟩
      else if s.params.maxLen < valueLength vw then .error ⟨.badLength, infoOf (valueLength vw)⟩
      else .ok (writeHeaderRegs (unpackHeader w)
        (writeOut (bytesBE (valueInteger w) (valueLength vw)) (clearResults s))) := by
  rw [mndecVerified, if_neg (Nat.not_lt.mpr hpad), if_neg (Nat.not_le.mpr hval)]

theorem exec_of_headerBody {s : State} {h : Header} {bs : List Byte}
    (hbody : mndecBody s = .ok (writeHeaderRegs h (writeOut bs (clearResults s)))) :
    exec .mndec s = .next (byteResult bs (writeHeaderRegs h s)) := by
  have hbody : commandBody .mndec s = _ := hbody
  rw [exec_eq_completeCommand, hbody, completeCommand_ok]
  rfl

end Sys2Proof.Machine

namespace Sys2Proof.Proofs

open Sys2Proof Sys2Proof.Machine

/-- Settles O54: each word is its ten bits of the string, and `GC - 1` is its high bits and its low bits. -/
theorem headerWordsAreTheFortyBitString : Obligations.HeaderWordsAreTheFortyBitString := fun h hok =>
  ⟨length_headerWords h, ofDigits_headerWords hok⟩

/-- Settles O55: the fields divide the bits of the four words between them. -/
theorem unpackInvertsPacking : Obligations.UnpackInvertsPacking :=
  ⟨fun _ rest hok => unpackHeader_headerWords_append hok rest,
    fun w0 w1 w2 w3 => ⟨headerOk_unpackHeader _, headerWords_unpackHeader w0 w1 w2 w3⟩⟩

/-- Settles O56: the excess of the value words is their padding, so what remains is the bytes. -/
theorem paddingOfEvenLengths : Obligations.PaddingOfEvenLengths := by
  intro n heven
  obtain ⟨hpad, hle, -⟩ := paddingBits_valueWordCount heven
  exact ⟨hpad, hle, valueLength_valueWordCount heven⟩

/-- Settles O57: one case per check of the body, in its order; `WORDS` is written from element 0 on. -/
theorem mnencFollowsItsRule : Obligations.MnencFollowsItsRule := by
  intro s hp
  refine ⟨fun hlen => ?_, fun hlen hgt => ?_, fun hlen hgt hgc => ?_, fun hlen hgt hgc hmt => ?_,
    fun hlen hok hlt => ?_, fun hlen hok hle => ?_, rfl⟩
  · exact exec_of_errorBody (if_pos ((badSecretLength_iff s).mpr hlen))
  · exact exec_of_errorBody ((if_neg (not_badSecretLength hlen)).trans (if_pos ((outOfField_iff _).mpr hgt)))
  · exact exec_of_errorBody ((if_neg (not_badSecretLength hlen)).trans
      ((if_neg (not_outOfField hgt)).trans (if_pos ((outOfField_iff _).mpr hgc))))
  · exact exec_of_errorBody ((if_neg (not_badSecretLength hlen)).trans ((if_neg (not_outOfField hgt)).trans
      ((if_neg (not_outOfField hgc)).trans (if_pos ((outOfField_iff _).mpr hmt)))))
  · obtain ⟨hgt, hgc, hmt⟩ := hok
    exact exec_of_errorBody ((mnencBody_of_headerOk hlen hgt hgc hmt).trans (if_pos hlt))
  · refine ⟨_, exec_mnenc hlen hok hle, toNat_wlen_mnencResult hp hlen, ?_, rfl⟩
    rintro _ rfl j
    have hvalue : wordsBE (intBE (secretBytes s)) ((8 * s.len.toNat + 9) / 10) = valueWords (secretBytes s) := by
      rw [valueWords, valueWordCount, length_secretBytes]
    rw [hvalue, ← length_encodedWords]
    refine (Memory.read_writeList ..).trans ?_
    simp only [Nat.zero_le, true_and, Nat.zero_add, Nat.sub_zero]
    rfl

/-- Settles O58: one case per check of the body, in its order. -/
theorem mndecFollowsItsRule : Obligations.MndecFollowsItsRule := by
  intro s k vw pad n val w f hk hvw hpad hn hw hval hf
  subst hk hvw hpad hn hw hf
  rw [← valueInteger_mnemonicWords] at hval
  subst hval
  refine ⟨fun hmax => ?_, fun hmax hmin => ?_, fun hmax hmin hverify => ?_, fun hmax hmin hverify hbad => ?_,
    fun hmax hmin hverify hpad hval hlt => ?_, fun hmax hmin hverify hpad hval hle hlen => ?_,
    fun hmax hmin hverify hpad hval hle hlen => ?_, rfl⟩
  · exact exec_of_errorBody (if_pos hmax)
  · exact exec_of_errorBody ((if_neg (Nat.not_lt.mpr hmax)).trans (if_pos hmin))
  · exact exec_of_errorBody ((mndecBody_of_lengths hmax hmin).trans (if_neg (Bool.eq_false_iff.mp hverify)))
  · exact exec_of_errorBody (((mndecBody_of_lengths hmax hmin).trans (if_pos hverify)).trans
      (mndecVerified_of_bad_padding hbad))
  all_goals
    have hbody := ((mndecBody_of_lengths hmax hmin).trans (if_pos hverify)).trans (mndecVerified_of_padding hpad hval)
  · exact exec_of_errorBody (hbody.trans (if_pos hlt))
  · exact exec_of_errorBody (hbody.trans ((if_neg (Nat.not_lt.mpr hle)).trans (if_pos hlen)))
  · exact exec_of_headerBody
      (hbody.trans ((if_neg (Nat.not_lt.mpr hle)).trans (if_neg (Nat.not_lt.mpr hlen))))

/-- Settles O59: the words in `WORDS` unpack to the registers, their checksum verifies under the flag in them, and their
value is the secret's, so `MNDEC` passes each of its checks and writes the registers with what they hold. -/
theorem mnencThenMndec : Obligations.MnencThenMndec := by
  intro s hp hlen hok hle
  refine ⟨mnencResult s, exec_mnenc hlen hok hle, ?_⟩
  obtain ⟨hmin, hmax⟩ := wlen_mnencResult_bounds hp hlen
  have hwords := mnemonicWords_mnencResult hp hlen
  have hcount : valueWordCount s.len.toNat = (mnencResult s).wlen.toNat - 7 := by
    rw [toNat_wlen_mnencResult hp hlen, Nat.add_sub_cancel_left, valueWordCount]
  obtain ⟨heven, -, hfit⟩ := hlen
  obtain ⟨-, hpad, -⟩ := paddingBits_valueWordCount heven
  have hvalue : intBE (secretBytes s) = intWords (((encodedWords s).drop 4).take (valueWordCount s.len.toNat)) := by
    rw [take_drop_encodedWords, intWords_valueWords]
  obtain ⟨-, -, -, -, -, -, hdecode, -⟩ := mndecFollowsItsRule (mnencResult s) _ _ _ _ _ _ _ rfl hcount rfl
    (valueLength_valueWordCount heven).symm hwords.symm hvalue (unpackHeader_encodedWords hok).symm
  have hexec := hdecode hmax hmin (createdChecksumVerifies _ _) hpad (length_secretBytes s ▸ intBE_lt _) hle hfit
  rwa [← length_secretBytes, bytesBE_intBE] at hexec

end Sys2Proof.Proofs

end

/-!
## The hash suite

The lengths of the three functions are lemmas of the Shamir layer (`length_sha256`, `length_hmacSha256`) and of the Feistel
layer (`length_pbkdf2`), which use them.
-/
section

set_option Elab.async false

namespace Sys2Proof.Proofs

open Sys2Proof Sys2Proof.Machine

/-- Settles O44: SHA-256 ends in the bytes of eight 32-bit words, HMAC-SHA256 in a SHA-256 value, and PBKDF2 cuts to `dkLen`
bytes a sequence of 32-byte blocks that is at least as long. -/
theorem hashOutputLengths : Obligations.HashOutputLengths :=
  ⟨length_sha256, length_hmacSha256, length_pbkdf2⟩

end Sys2Proof.Proofs

end

/-!
## Completion, the error report, and whose turn it is

What a command does to the result registers is read off the shape of its writes (`CommandResult`) or is the error report
(60_exceptions.md R212, R214); a step is an equation for each agent at the head of `turns` (R213).
-/
section

set_option Elab.async false

namespace Sys2Proof.Machine

/-! ### The result registers -/

/-- Only a result in `R0` leaves another value there than the common effects do. -/
theorem CommandResult.r0_eq_zero {i : Instr} {s u : State} (h : CommandResult s i u) (hmul : ∀ a b, i ≠ .gfmul a b)
    (hexp : ∀ k, i ≠ .gfexp k) (hlog : ∀ a, i ≠ .gflog a) (hverify : i ≠ .rsverify) : u.r0 = 0 := by
  cases h with
  | scalar v hi =>
    rcases hi with ⟨a, b, rfl⟩ | ⟨k, rfl⟩ | ⟨a, rfl⟩ | rfl
    · exact absurd rfl (hmul a b)
    · exact absurd rfl (hexp k)
    · exact absurd rfl (hlog a)
    · exact absurd rfl hverify
  | _ => rfl

/-- Only a result of bytes, with or without a header, leaves another `OUT` than the common effects do. -/
theorem CommandResult.out_eq_nil {i : Instr} {s u : State} (h : CommandResult s i u) (hinterp : ∀ x, i ≠ .interp x)
    (hrecover : ∀ k, i ≠ .recover k) (henc : i ≠ .encrypt) (hdec : i ≠ .decrypt) (hmndec : i ≠ .mndec) :
    u.olen = 0 ∧ u.out = [] := by
  cases h with
  | bytes bs hlen hi =>
    rcases hi with ⟨x, rfl⟩ | ⟨k, rfl⟩ | rfl | rfl
    · exact absurd rfl (hinterp x)
    · exact absurd rfl (hrecover k)
    · exact absurd rfl henc
    · exact absurd rfl hdec
  | header h bs hlen => exact absurd rfl hmndec
  | _ => exact ⟨rfl, rfl⟩

/-- Completion without error keeps `ERROR`, which no write of a command touches. -/
theorem CommandResult.finish_error {i : Instr} {s u : State} (h : CommandResult s i u) :
    (finishCommand u).status.error = s.status.error := by
  obtain ⟨-, -, hstatus, -⟩ := h.frame
  rw [finishCommand_status, Status.completed_error, hstatus]

/-- A command that ends with an error reports it, and the error is one the command may raise. -/
theorem exec_error {i : Instr} {s t : State} (hs : s.status.error = false) (h : exec i s = .next t)
    (ht : t.status.error = true) : ∃ e : Raise, e.err ∈ i.mayRaise ∧ t = reportError e s := by
  rcases exec_next h with ⟨u, hu, rfl⟩ | ⟨e, he, rfl⟩
  · rw [(commandBody_result hu).finish_error, hs] at ht
    cases ht
  · exact ⟨e, commandBody_error he, rfl⟩

/-! ### One step, by the turn it takes -/

theorem nextTurn_of_cons {s : State} {a : Turn} {rest : List Turn} (h : s.turns = a :: rest) : nextTurn s = a := by
  rw [nextTurn, h]

theorem nextTurn_of_nil {s : State} (h : s.turns = []) : nextTurn s = .block := by
  rw [nextTurn, h]

theorem dropTurn_of_cons {s : State} {a : Turn} {rest : List Turn} (h : s.turns = a :: rest) :
    dropTurn s = { s with turns := rest } := by
  rw [dropTurn, h, List.tail_cons]

theorem dropTurn_of_nil {s : State} (h : s.turns = []) : dropTurn s = s := by
  rw [dropTurn, h, List.tail_nil, ← h]

theorem step_of_host {s : State} {a : Access} (h : nextTurn s = .host a) :
    step s = .next (hostAccess a (dropTurn s)) := by
  rw [step, h]

theorem step_of_reset {s : State} (h : nextTurn s = .reset) : step s = .next (resetBlock (dropTurn s)) := by
  rw [step, h]

theorem step_of_block {s : State} (h : nextTurn s = .block) : step s = blockStep (dropTurn s) := by
  rw [step, h]

theorem blockStep_of_idle {s : State} (h : s.status.busy = false) : blockStep s = .next s := by
  rw [blockStep, h, if_neg Bool.false_ne_true]

/-- The block's turn always completes: idle, with the pending command, or with `IllegalCommand`. -/
theorem exists_blockStep_next (s : State) : ∃ t, blockStep s = .next t := by
  cases hb : s.status.busy with
  | false => exact ⟨s, blockStep_of_idle hb⟩
  | true =>
    cases hd : decode s.cmd with
    | ok i =>
      rw [blockStep_of_decode hb hd]
      exact exists_exec_next i s
    | error e => exact ⟨completeIllegal s, blockStep_of_illegal hb fun i hi => nomatch hd.symm.trans hi⟩

end Sys2Proof.Machine

namespace Sys2Proof.Proofs

open Sys2Proof Sys2Proof.Machine

/-- Settles O21: an error can only come from the body's `raise`, which is the report of one of the command's errors. -/
theorem errorReportIsTheWholeEffect : Obligations.ErrorReportIsTheWholeEffect := by
  intro i s t hs h ht
  obtain ⟨e, he, rfl⟩ := exec_error hs h ht
  exact ⟨e.err, e.info.toNat, he, reportError_eq_errorReport e s⟩

/-- Settles O22: a body without error leaves its writes on the cleared state, one with an error leaves the report. -/
theorem commonCompletionEffects : Obligations.CommonCompletionEffects := by
  intro i s
  obtain ⟨t, ht⟩ := exists_exec_next i s
  obtain ⟨-, hcmd, hhaz, hbadacc, -⟩ := exec_frame ht
  refine ⟨t, ht, busy_of_exec ht, ?_⟩
  rcases exec_next ht with ⟨u, hu, rfl⟩ | ⟨e, -, rfl⟩
  · have hres := commandBody_result hu
    obtain ⟨-, -, -, herr, hinfo, -⟩ := hres.frame
    exact ⟨rfl, hcmd, hhaz, hbadacc, hres.r0_eq_zero, hres.out_eq_nil, .inl ⟨hres.finish_error, herr, hinfo⟩⟩
  · exact ⟨rfl, hcmd, hhaz, hbadacc, fun _ _ _ _ => rfl, fun _ _ _ _ _ => ⟨rfl, rfl⟩,
      .inr ⟨e.err, e.info.toNat, reportError_eq_errorReport e s⟩⟩

/-- Settles O5: with no turn waiting, or the block's, the step is the block's, which runs the decoded command. -/
theorem stepRunsDecodedCommand : Obligations.StepRunsDecodedCommand := by
  intro s i hturns hb hd
  have hturn : nextTurn s = .block := by
    rcases hturns with h | ⟨rest, h⟩
    · exact nextTurn_of_nil h
    · exact nextTurn_of_cons h
  rw [step_of_block hturn, blockStep_of_decode (s := dropTurn s) hb hd, dropTurn]

/-- Settles O6: the head of `turns` names the agent, and an empty list the block. -/
theorem stepTakesTheNextTurn : Obligations.StepTakesTheNextTurn := by
  intro s rest
  refine ⟨fun a h => ?_, fun h => ?_, fun h hb => ?_, fun h hb => ?_⟩
  · rw [step_of_host (nextTurn_of_cons h), dropTurn_of_cons h]
  · rw [step_of_reset (nextTurn_of_cons h), dropTurn_of_cons h]
  · rw [step_of_block (nextTurn_of_cons h), dropTurn_of_cons h]
    exact blockStep_of_idle hb
  · rw [step_of_block (nextTurn_of_nil h), dropTurn_of_nil h, blockStep_of_idle hb]

/-- Settles O16: an access and the reset step answer a state outright, and the block's turn always completes. -/
theorem everyStepAnswersNext : Obligations.EveryStepAnswersNext := by
  intro s
  cases hturn : nextTurn s with
  | host a => exact ⟨_, step_of_host hturn⟩
  | reset => exact ⟨_, step_of_reset hturn⟩
  | block =>
    rw [step_of_block hturn]
    exact exists_blockStep_next (dropTurn s)

end Sys2Proof.Proofs

end

/-!
## The reset step and the state after reset

What each command comes to on the all-zero state (70_reset_and_hazards.md R243) is the rule of the command, at the case the
zeros select: no slot is valid, `LEN` and `WLEN` are 0, and `CMD` selects no command.
-/
section

set_option Elab.async false

namespace Sys2Proof.Machine

/-- The host reads the same from every block after the reset step: what `resetBlock` keeps is no cell. -/
theorem readCell_resetBlock (c : PortCell) (s : State) : readCell c (resetBlock s) = readCell c State.reset := by
  cases c <;> rfl

theorem checkShares_reset : checkShares State.reset = .error ⟨.badShareCount, 0⟩ :=
  checkShares_of_nil (validSlots_eq_nil fun _ ⟨_, hvalid⟩ => Bool.false_ne_true (BitVec.getLsbD_zero.symm.trans hvalid))

theorem not_secretLenOk_reset : ¬ SecretLenOk State.reset := by decide

/-- The checksum words of no data words at all (44_rs1024.md R143, V7). -/
theorem rsCreate_nil : rsCreate [] 0 = [413, 424, 113] := by decide

theorem rsVerify_nil : rsVerify [] 0 = false := by decide

theorem exec_rscreate_reset :
    exec .rscreate State.reset = .next { State.reset with
      words := [(0, 413), (1, 424), (2, 113)], wlen := 3, status := doneStatus State.reset } := by
  have hbody : commandBody .rscreate State.reset = .ok (writeWords 0 (rsCreate [] 0) (clearResults State.reset)) :=
    rscreateBody_of_fits (by decide)
  rw [exec_eq_completeCommand, hbody, completeCommand_ok, rsCreate_nil]
  rfl

theorem decode_zero_ne_ok (i : Instr) : decode 0 ≠ .ok i := nofun

end Sys2Proof.Machine

namespace Sys2Proof.Proofs

open Sys2Proof Sys2Proof.Machine

/-- Settles O13: the cells after the reset step are those of the reset state, whatever the state before. -/
theorem resetStepClearsEveryCell : Obligations.ResetStepClearsEveryCell := fun s c =>
  (readCell_resetBlock c s).trans (resetStateIsAllZero c)

/-- Settles O15: each command's rule at the reset state, and the checksum of no words for `RSCREATE` and `RSVERIFY`. -/
theorem commandsOnTheResetState : Obligations.CommandsOnTheResetState := by
  refine ⟨rfl, rfl, fun turns rest hturns => ?block, ?gfmul, ?gfexp, ?gflog, fun x => ?interp, fun t ht => ?recover,
    ?recoverZero, fun t n ht htn hn => ?split, fun i hi => ?secret, exec_rscreate_reset, ?rsverify, ?mndec, ?illegal⟩
  case block =>
    obtain ⟨-, -, hblock, -⟩ := stepTakesTheNextTurn { State.reset with turns := turns } rest
    exact hblock hturns rfl
  case gfmul => exact (gfmulWritesProduct 0 0 State.reset).1
  case gfexp => exact (gfexpReadsTable 0 State.reset).1
  case gflog => exact (gflogReadsTable 0 State.reset).2.1
  case interp => exact (interpFollowsItsRule State.reset x).1 _ checkShares_reset
  case recover =>
    obtain ⟨-, herror, -⟩ := recoverFollowsItsRule State.reset t 0
    exact herror (Nat.ne_of_gt ht) _ checkShares_reset
  case recoverZero => exact (recoverFollowsItsRule State.reset 0 0).1
  case split =>
    obtain ⟨-, -, hlength, -⟩ := splitFollowsItsRule State.reset t n (by decide)
    exact hlength (Nat.ne_of_gt ht) htn hn (.inl rfl)
  case secret =>
    simp only [List.mem_cons, List.not_mem_nil, or_false] at hi
    rcases hi with rfl | rfl | rfl
    · exact (encryptFollowsItsRule State.reset).1 not_secretLenOk_reset
    · exact (decryptFollowsItsRule State.reset).1 not_secretLenOk_reset
    · exact (mnencFollowsItsRule State.reset (by decide)).1 not_secretLenOk_reset
  case rsverify =>
    obtain ⟨-, hverify, -⟩ := rsverifyFollowsItsRule State.reset
    have hwords : rsVerify (mnemonicWords State.reset) State.reset.extFlag = false := rsVerify_nil
    rw [hverify (Nat.zero_le _), hwords, if_neg Bool.false_ne_true]
  case mndec =>
    obtain ⟨-, hshort, -⟩ := mndecFollowsItsRule State.reset _ _ _ _ _ _ _ rfl rfl rfl rfl rfl rfl rfl
    exact hshort (Nat.zero_le _) (by decide)
  case illegal =>
    exact blockStep_of_illegal (s := issueCommand 0 State.reset) rfl decode_zero_ne_ok

end Sys2Proof.Proofs

end
